-- ==== Sys2Proof/Word.lean ====
section
/-! DEFINITION. The two word types of the hardware. 00_scope.md R6: `XLEN` = 8, `ALEN` = 16. -/

namespace Sys2Proof

/-- A data byte and the width of A, X, Y and SP. 00_scope.md R6. -/
abbrev Byte := BitVec 8

/-- A bus address and the width of PC. 00_scope.md R6, 20_memory.md R50. -/
abbrev Addr := BitVec 16

end Sys2Proof
end

