-- ==== Sys2Proof/Syntax.lean ====
section
/-! DEFINITION. The instructions: one constructor for each documented row of spec/opcode_table.json (151 rows of
56 mnemonics), and `ill`, which stands for the 105 rows whose mnemonic is ILL and carries its byte.

A row is a (mnemonic, addressing mode) pair (30_encoding.md R89, R91). A constructor is named by the mnemonic and,
where the mnemonic has more than one mode, the mode's tag. Its field is the operand as the mode assembles it
(30_encoding.md R85 to R88): a byte, or the 16-bit value `b2 ++ b1`. -/

namespace Sys2Proof

/-- An instruction of the core. 30_encoding.md R89, R91, R92. -/
inductive Instr where
  -- LoadStore
  /-- LDA Immediate, opcode 0xA9. -/
  | ldaImmediate (value : Byte)
  /-- LDA ZeroPage, opcode 0xA5. -/
  | ldaZeroPage (zp : Byte)
  /-- LDA ZeroPageX, opcode 0xB5. -/
  | ldaZeroPageX (zp : Byte)
  /-- LDA Absolute, opcode 0xAD. -/
  | ldaAbsolute (address : Addr)
  /-- LDA AbsoluteX, opcode 0xBD. -/
  | ldaAbsoluteX (address : Addr)
  /-- LDA AbsoluteY, opcode 0xB9. -/
  | ldaAbsoluteY (address : Addr)
  /-- LDA IndexedIndirectX, opcode 0xA1. -/
  | ldaIndexedIndirectX (zp : Byte)
  /-- LDA IndirectIndexedY, opcode 0xB1. -/
  | ldaIndirectIndexedY (zp : Byte)
  /-- LDX Immediate, opcode 0xA2. -/
  | ldxImmediate (value : Byte)
  /-- LDX ZeroPage, opcode 0xA6. -/
  | ldxZeroPage (zp : Byte)
  /-- LDX ZeroPageY, opcode 0xB6. -/
  | ldxZeroPageY (zp : Byte)
  /-- LDX Absolute, opcode 0xAE. -/
  | ldxAbsolute (address : Addr)
  /-- LDX AbsoluteY, opcode 0xBE. -/
  | ldxAbsoluteY (address : Addr)
  /-- LDY Immediate, opcode 0xA0. -/
  | ldyImmediate (value : Byte)
  /-- LDY ZeroPage, opcode 0xA4. -/
  | ldyZeroPage (zp : Byte)
  /-- LDY ZeroPageX, opcode 0xB4. -/
  | ldyZeroPageX (zp : Byte)
  /-- LDY Absolute, opcode 0xAC. -/
  | ldyAbsolute (address : Addr)
  /-- LDY AbsoluteX, opcode 0xBC. -/
  | ldyAbsoluteX (address : Addr)
  /-- STA ZeroPage, opcode 0x85. -/
  | staZeroPage (zp : Byte)
  /-- STA ZeroPageX, opcode 0x95. -/
  | staZeroPageX (zp : Byte)
  /-- STA Absolute, opcode 0x8D. -/
  | staAbsolute (address : Addr)
  /-- STA AbsoluteX, opcode 0x9D. -/
  | staAbsoluteX (address : Addr)
  /-- STA AbsoluteY, opcode 0x99. -/
  | staAbsoluteY (address : Addr)
  /-- STA IndexedIndirectX, opcode 0x81. -/
  | staIndexedIndirectX (zp : Byte)
  /-- STA IndirectIndexedY, opcode 0x91. -/
  | staIndirectIndexedY (zp : Byte)
  /-- STX ZeroPage, opcode 0x86. -/
  | stxZeroPage (zp : Byte)
  /-- STX ZeroPageY, opcode 0x96. -/
  | stxZeroPageY (zp : Byte)
  /-- STX Absolute, opcode 0x8E. -/
  | stxAbsolute (address : Addr)
  /-- STY ZeroPage, opcode 0x84. -/
  | styZeroPage (zp : Byte)
  /-- STY ZeroPageX, opcode 0x94. -/
  | styZeroPageX (zp : Byte)
  /-- STY Absolute, opcode 0x8C. -/
  | styAbsolute (address : Addr)
  -- TransferStack
  /-- TAX Implied, opcode 0xAA. -/
  | tax
  /-- TAY Implied, opcode 0xA8. -/
  | tay
  /-- TXA Implied, opcode 0x8A. -/
  | txa
  /-- TYA Implied, opcode 0x98. -/
  | tya
  /-- TSX Implied, opcode 0xBA. -/
  | tsx
  /-- TXS Implied, opcode 0x9A. -/
  | txs
  /-- PHA Implied, opcode 0x48. -/
  | pha
  /-- PHP Implied, opcode 0x08. -/
  | php
  /-- PLA Implied, opcode 0x68. -/
  | pla
  /-- PLP Implied, opcode 0x28. -/
  | plp
  -- Logical
  /-- AND Immediate, opcode 0x29. -/
  | andImmediate (value : Byte)
  /-- AND ZeroPage, opcode 0x25. -/
  | andZeroPage (zp : Byte)
  /-- AND ZeroPageX, opcode 0x35. -/
  | andZeroPageX (zp : Byte)
  /-- AND Absolute, opcode 0x2D. -/
  | andAbsolute (address : Addr)
  /-- AND AbsoluteX, opcode 0x3D. -/
  | andAbsoluteX (address : Addr)
  /-- AND AbsoluteY, opcode 0x39. -/
  | andAbsoluteY (address : Addr)
  /-- AND IndexedIndirectX, opcode 0x21. -/
  | andIndexedIndirectX (zp : Byte)
  /-- AND IndirectIndexedY, opcode 0x31. -/
  | andIndirectIndexedY (zp : Byte)
  /-- ORA Immediate, opcode 0x09. -/
  | oraImmediate (value : Byte)
  /-- ORA ZeroPage, opcode 0x05. -/
  | oraZeroPage (zp : Byte)
  /-- ORA ZeroPageX, opcode 0x15. -/
  | oraZeroPageX (zp : Byte)
  /-- ORA Absolute, opcode 0x0D. -/
  | oraAbsolute (address : Addr)
  /-- ORA AbsoluteX, opcode 0x1D. -/
  | oraAbsoluteX (address : Addr)
  /-- ORA AbsoluteY, opcode 0x19. -/
  | oraAbsoluteY (address : Addr)
  /-- ORA IndexedIndirectX, opcode 0x01. -/
  | oraIndexedIndirectX (zp : Byte)
  /-- ORA IndirectIndexedY, opcode 0x11. -/
  | oraIndirectIndexedY (zp : Byte)
  /-- EOR Immediate, opcode 0x49. -/
  | eorImmediate (value : Byte)
  /-- EOR ZeroPage, opcode 0x45. -/
  | eorZeroPage (zp : Byte)
  /-- EOR ZeroPageX, opcode 0x55. -/
  | eorZeroPageX (zp : Byte)
  /-- EOR Absolute, opcode 0x4D. -/
  | eorAbsolute (address : Addr)
  /-- EOR AbsoluteX, opcode 0x5D. -/
  | eorAbsoluteX (address : Addr)
  /-- EOR AbsoluteY, opcode 0x59. -/
  | eorAbsoluteY (address : Addr)
  /-- EOR IndexedIndirectX, opcode 0x41. -/
  | eorIndexedIndirectX (zp : Byte)
  /-- EOR IndirectIndexedY, opcode 0x51. -/
  | eorIndirectIndexedY (zp : Byte)
  /-- BIT ZeroPage, opcode 0x24. -/
  | bitZeroPage (zp : Byte)
  /-- BIT Absolute, opcode 0x2C. -/
  | bitAbsolute (address : Addr)
  -- Arithmetic
  /-- ADC Immediate, opcode 0x69. -/
  | adcImmediate (value : Byte)
  /-- ADC ZeroPage, opcode 0x65. -/
  | adcZeroPage (zp : Byte)
  /-- ADC ZeroPageX, opcode 0x75. -/
  | adcZeroPageX (zp : Byte)
  /-- ADC Absolute, opcode 0x6D. -/
  | adcAbsolute (address : Addr)
  /-- ADC AbsoluteX, opcode 0x7D. -/
  | adcAbsoluteX (address : Addr)
  /-- ADC AbsoluteY, opcode 0x79. -/
  | adcAbsoluteY (address : Addr)
  /-- ADC IndexedIndirectX, opcode 0x61. -/
  | adcIndexedIndirectX (zp : Byte)
  /-- ADC IndirectIndexedY, opcode 0x71. -/
  | adcIndirectIndexedY (zp : Byte)
  /-- SBC Immediate, opcode 0xE9. -/
  | sbcImmediate (value : Byte)
  /-- SBC ZeroPage, opcode 0xE5. -/
  | sbcZeroPage (zp : Byte)
  /-- SBC ZeroPageX, opcode 0xF5. -/
  | sbcZeroPageX (zp : Byte)
  /-- SBC Absolute, opcode 0xED. -/
  | sbcAbsolute (address : Addr)
  /-- SBC AbsoluteX, opcode 0xFD. -/
  | sbcAbsoluteX (address : Addr)
  /-- SBC AbsoluteY, opcode 0xF9. -/
  | sbcAbsoluteY (address : Addr)
  /-- SBC IndexedIndirectX, opcode 0xE1. -/
  | sbcIndexedIndirectX (zp : Byte)
  /-- SBC IndirectIndexedY, opcode 0xF1. -/
  | sbcIndirectIndexedY (zp : Byte)
  /-- CMP Immediate, opcode 0xC9. -/
  | cmpImmediate (value : Byte)
  /-- CMP ZeroPage, opcode 0xC5. -/
  | cmpZeroPage (zp : Byte)
  /-- CMP ZeroPageX, opcode 0xD5. -/
  | cmpZeroPageX (zp : Byte)
  /-- CMP Absolute, opcode 0xCD. -/
  | cmpAbsolute (address : Addr)
  /-- CMP AbsoluteX, opcode 0xDD. -/
  | cmpAbsoluteX (address : Addr)
  /-- CMP AbsoluteY, opcode 0xD9. -/
  | cmpAbsoluteY (address : Addr)
  /-- CMP IndexedIndirectX, opcode 0xC1. -/
  | cmpIndexedIndirectX (zp : Byte)
  /-- CMP IndirectIndexedY, opcode 0xD1. -/
  | cmpIndirectIndexedY (zp : Byte)
  /-- CPX Immediate, opcode 0xE0. -/
  | cpxImmediate (value : Byte)
  /-- CPX ZeroPage, opcode 0xE4. -/
  | cpxZeroPage (zp : Byte)
  /-- CPX Absolute, opcode 0xEC. -/
  | cpxAbsolute (address : Addr)
  /-- CPY Immediate, opcode 0xC0. -/
  | cpyImmediate (value : Byte)
  /-- CPY ZeroPage, opcode 0xC4. -/
  | cpyZeroPage (zp : Byte)
  /-- CPY Absolute, opcode 0xCC. -/
  | cpyAbsolute (address : Addr)
  -- IncDec
  /-- INC ZeroPage, opcode 0xE6. -/
  | incZeroPage (zp : Byte)
  /-- INC ZeroPageX, opcode 0xF6. -/
  | incZeroPageX (zp : Byte)
  /-- INC Absolute, opcode 0xEE. -/
  | incAbsolute (address : Addr)
  /-- INC AbsoluteX, opcode 0xFE. -/
  | incAbsoluteX (address : Addr)
  /-- DEC ZeroPage, opcode 0xC6. -/
  | decZeroPage (zp : Byte)
  /-- DEC ZeroPageX, opcode 0xD6. -/
  | decZeroPageX (zp : Byte)
  /-- DEC Absolute, opcode 0xCE. -/
  | decAbsolute (address : Addr)
  /-- DEC AbsoluteX, opcode 0xDE. -/
  | decAbsoluteX (address : Addr)
  /-- INX Implied, opcode 0xE8. -/
  | inx
  /-- INY Implied, opcode 0xC8. -/
  | iny
  /-- DEX Implied, opcode 0xCA. -/
  | dex
  /-- DEY Implied, opcode 0x88. -/
  | dey
  -- Shift
  /-- ASL Accumulator, opcode 0x0A. -/
  | aslAccumulator
  /-- ASL ZeroPage, opcode 0x06. -/
  | aslZeroPage (zp : Byte)
  /-- ASL ZeroPageX, opcode 0x16. -/
  | aslZeroPageX (zp : Byte)
  /-- ASL Absolute, opcode 0x0E. -/
  | aslAbsolute (address : Addr)
  /-- ASL AbsoluteX, opcode 0x1E. -/
  | aslAbsoluteX (address : Addr)
  /-- LSR Accumulator, opcode 0x4A. -/
  | lsrAccumulator
  /-- LSR ZeroPage, opcode 0x46. -/
  | lsrZeroPage (zp : Byte)
  /-- LSR ZeroPageX, opcode 0x56. -/
  | lsrZeroPageX (zp : Byte)
  /-- LSR Absolute, opcode 0x4E. -/
  | lsrAbsolute (address : Addr)
  /-- LSR AbsoluteX, opcode 0x5E. -/
  | lsrAbsoluteX (address : Addr)
  /-- ROL Accumulator, opcode 0x2A. -/
  | rolAccumulator
  /-- ROL ZeroPage, opcode 0x26. -/
  | rolZeroPage (zp : Byte)
  /-- ROL ZeroPageX, opcode 0x36. -/
  | rolZeroPageX (zp : Byte)
  /-- ROL Absolute, opcode 0x2E. -/
  | rolAbsolute (address : Addr)
  /-- ROL AbsoluteX, opcode 0x3E. -/
  | rolAbsoluteX (address : Addr)
  /-- ROR Accumulator, opcode 0x6A. -/
  | rorAccumulator
  /-- ROR ZeroPage, opcode 0x66. -/
  | rorZeroPage (zp : Byte)
  /-- ROR ZeroPageX, opcode 0x76. -/
  | rorZeroPageX (zp : Byte)
  /-- ROR Absolute, opcode 0x6E. -/
  | rorAbsolute (address : Addr)
  /-- ROR AbsoluteX, opcode 0x7E. -/
  | rorAbsoluteX (address : Addr)
  -- Jump
  /-- JMP Absolute, opcode 0x4C. -/
  | jmpAbsolute (target : Addr)
  /-- JMP Indirect, opcode 0x6C. -/
  | jmpIndirect (pointer : Addr)
  /-- JSR Absolute, opcode 0x20. -/
  | jsr (target : Addr)
  /-- RTS Implied, opcode 0x60. -/
  | rts
  -- Branch
  /-- BCC Relative, opcode 0x90. -/
  | bcc (offset : Byte)
  /-- BCS Relative, opcode 0xB0. -/
  | bcs (offset : Byte)
  /-- BEQ Relative, opcode 0xF0. -/
  | beq (offset : Byte)
  /-- BNE Relative, opcode 0xD0. -/
  | bne (offset : Byte)
  /-- BMI Relative, opcode 0x30. -/
  | bmi (offset : Byte)
  /-- BPL Relative, opcode 0x10. -/
  | bpl (offset : Byte)
  /-- BVC Relative, opcode 0x50. -/
  | bvc (offset : Byte)
  /-- BVS Relative, opcode 0x70. -/
  | bvs (offset : Byte)
  -- FlagNop
  /-- CLC Implied, opcode 0x18. -/
  | clc
  /-- SEC Implied, opcode 0x38. -/
  | sec
  /-- CLI Implied, opcode 0x58. -/
  | cli
  /-- SEI Implied, opcode 0x78. -/
  | sei
  /-- CLD Implied, opcode 0xD8. -/
  | cld
  /-- SED Implied, opcode 0xF8. -/
  | sed
  /-- CLV Implied, opcode 0xB8. -/
  | clv
  /-- NOP Implied, opcode 0xEA. -/
  | nop
  -- System
  /-- BRK Implied, opcode 0x00. -/
  | brk
  /-- RTI Implied, opcode 0x40. -/
  | rti
  -- the 105 Illegal rows
  /-- ILL: the byte `opcode` is none of the 151 documented opcodes. 30_encoding.md R92. -/
  | ill (opcode : Byte)
  deriving DecidableEq, Repr

end Sys2Proof
end

