-- ==== Sys2Proof/Decode.lean ====
section
/-! DEFINITION. The opcode table, the decoder, and after it the encoder.

The decoder is 30_encoding.md R89's map read row by row: `row8` is the line `8x`, its 16 places the columns `x0` to
`xF`, a place `ill` where the map has `-`. The encoder is R91's list read the other way (mnemonic and mode to opcode
byte), written independently of the decoder. The opcode assignment is the spec's own decision D11 (log entry 5). -/

namespace Sys2Proof

/-- The 56 mnemonics of 30_encoding.md R97, and `ill`, the table's label for an Illegal entry. -/
inductive Mnemonic where
  | lda | ldx | ldy | sta | stx | sty
  | tax | tay | txa | tya | tsx | txs | pha | php | pla | plp
  | and | ora | eor | bit
  | adc | sbc | cmp | cpx | cpy
  | inc | dec | inx | iny | dex | dey
  | asl | lsr | rol | ror
  | jmp | jsr | rts
  | bcc | bcs | beq | bne | bmi | bpl | bvc | bvs
  | clc | sec | cli | sei | cld | sed | clv | nop
  | brk | rti
  | ill
  deriving DecidableEq, Repr

/-- The 13 addressing modes and the tag `illegal`. 30_encoding.md R82, 90_conflicts.md C1. -/
inductive Mode where
  | implied | accumulator | immediate | zeroPage | zeroPageX | zeroPageY | relative
  | absolute | absoluteX | absoluteY | indirect | indexedIndirectX | indirectIndexedY | illegal
  deriving DecidableEq, Repr

/-- The length in bytes of an instruction of a mode. 30_encoding.md R80, R84. -/
def Mode.length : Mode → Nat
  | .implied | .accumulator | .illegal => 1
  | .immediate | .zeroPage | .zeroPageX | .zeroPageY | .relative | .indexedIndirectX | .indirectIndexedY => 2
  | .absolute | .absoluteX | .absoluteY | .indirect => 3

/-- An operand of one of the eight memory modes (20_memory.md R60): the bytes of the instruction that name a
memory address, before the registers and the pointers are looked at. -/
inductive MemOperand where
  | zeroPage (zp : Byte) | zeroPageX (zp : Byte) | zeroPageY (zp : Byte)
  | absolute (address : Addr) | absoluteX (address : Addr) | absoluteY (address : Addr)
  | indexedIndirectX (zp : Byte) | indirectIndexedY (zp : Byte)
  deriving DecidableEq, Repr

/-- The operand of an instruction, by addressing mode. 30_encoding.md R82. -/
inductive Operand where
  | implied | accumulator | illegal
  | immediate (value : Byte)
  | relative (offset : Byte)
  | indirect (pointer : Addr)
  | memory (m : MemOperand)
  deriving DecidableEq, Repr

/-- The mode of a memory operand. -/
def MemOperand.mode : MemOperand → Mode
  | .zeroPage _ => .zeroPage
  | .zeroPageX _ => .zeroPageX
  | .zeroPageY _ => .zeroPageY
  | .absolute _ => .absolute
  | .absoluteX _ => .absoluteX
  | .absoluteY _ => .absoluteY
  | .indexedIndirectX _ => .indexedIndirectX
  | .indirectIndexedY _ => .indirectIndexedY

/-- The mode of an operand. -/
def Operand.mode : Operand → Mode
  | .implied => .implied
  | .accumulator => .accumulator
  | .illegal => .illegal
  | .immediate _ => .immediate
  | .relative _ => .relative
  | .indirect _ => .indirect
  | .memory m => m.mode

/-- The mnemonic of an instruction's row. 30_encoding.md R91. -/
def Instr.mnemonic : Instr → Mnemonic
  | .ldaImmediate _ | .ldaZeroPage _ | .ldaZeroPageX _ | .ldaAbsolute _ | .ldaAbsoluteX _ | .ldaAbsoluteY _ | .ldaIndexedIndirectX _ | .ldaIndirectIndexedY _ => .lda
  | .ldxImmediate _ | .ldxZeroPage _ | .ldxZeroPageY _ | .ldxAbsolute _ | .ldxAbsoluteY _ => .ldx
  | .ldyImmediate _ | .ldyZeroPage _ | .ldyZeroPageX _ | .ldyAbsolute _ | .ldyAbsoluteX _ => .ldy
  | .staZeroPage _ | .staZeroPageX _ | .staAbsolute _ | .staAbsoluteX _ | .staAbsoluteY _ | .staIndexedIndirectX _ | .staIndirectIndexedY _ => .sta
  | .stxZeroPage _ | .stxZeroPageY _ | .stxAbsolute _ => .stx
  | .styZeroPage _ | .styZeroPageX _ | .styAbsolute _ => .sty
  | .tax => .tax
  | .tay => .tay
  | .txa => .txa
  | .tya => .tya
  | .tsx => .tsx
  | .txs => .txs
  | .pha => .pha
  | .php => .php
  | .pla => .pla
  | .plp => .plp
  | .andImmediate _ | .andZeroPage _ | .andZeroPageX _ | .andAbsolute _ | .andAbsoluteX _ | .andAbsoluteY _ | .andIndexedIndirectX _ | .andIndirectIndexedY _ => .and
  | .oraImmediate _ | .oraZeroPage _ | .oraZeroPageX _ | .oraAbsolute _ | .oraAbsoluteX _ | .oraAbsoluteY _ | .oraIndexedIndirectX _ | .oraIndirectIndexedY _ => .ora
  | .eorImmediate _ | .eorZeroPage _ | .eorZeroPageX _ | .eorAbsolute _ | .eorAbsoluteX _ | .eorAbsoluteY _ | .eorIndexedIndirectX _ | .eorIndirectIndexedY _ => .eor
  | .bitZeroPage _ | .bitAbsolute _ => .bit
  | .adcImmediate _ | .adcZeroPage _ | .adcZeroPageX _ | .adcAbsolute _ | .adcAbsoluteX _ | .adcAbsoluteY _ | .adcIndexedIndirectX _ | .adcIndirectIndexedY _ => .adc
  | .sbcImmediate _ | .sbcZeroPage _ | .sbcZeroPageX _ | .sbcAbsolute _ | .sbcAbsoluteX _ | .sbcAbsoluteY _ | .sbcIndexedIndirectX _ | .sbcIndirectIndexedY _ => .sbc
  | .cmpImmediate _ | .cmpZeroPage _ | .cmpZeroPageX _ | .cmpAbsolute _ | .cmpAbsoluteX _ | .cmpAbsoluteY _ | .cmpIndexedIndirectX _ | .cmpIndirectIndexedY _ => .cmp
  | .cpxImmediate _ | .cpxZeroPage _ | .cpxAbsolute _ => .cpx
  | .cpyImmediate _ | .cpyZeroPage _ | .cpyAbsolute _ => .cpy
  | .incZeroPage _ | .incZeroPageX _ | .incAbsolute _ | .incAbsoluteX _ => .inc
  | .decZeroPage _ | .decZeroPageX _ | .decAbsolute _ | .decAbsoluteX _ => .dec
  | .inx => .inx
  | .iny => .iny
  | .dex => .dex
  | .dey => .dey
  | .aslAccumulator | .aslZeroPage _ | .aslZeroPageX _ | .aslAbsolute _ | .aslAbsoluteX _ => .asl
  | .lsrAccumulator | .lsrZeroPage _ | .lsrZeroPageX _ | .lsrAbsolute _ | .lsrAbsoluteX _ => .lsr
  | .rolAccumulator | .rolZeroPage _ | .rolZeroPageX _ | .rolAbsolute _ | .rolAbsoluteX _ => .rol
  | .rorAccumulator | .rorZeroPage _ | .rorZeroPageX _ | .rorAbsolute _ | .rorAbsoluteX _ => .ror
  | .jmpAbsolute _ | .jmpIndirect _ => .jmp
  | .jsr _ => .jsr
  | .rts => .rts
  | .bcc _ => .bcc
  | .bcs _ => .bcs
  | .beq _ => .beq
  | .bne _ => .bne
  | .bmi _ => .bmi
  | .bpl _ => .bpl
  | .bvc _ => .bvc
  | .bvs _ => .bvs
  | .clc => .clc
  | .sec => .sec
  | .cli => .cli
  | .sei => .sei
  | .cld => .cld
  | .sed => .sed
  | .clv => .clv
  | .nop => .nop
  | .brk => .brk
  | .rti => .rti
  | .ill _ => .ill

/-- The operand of an instruction, in its row's mode. 30_encoding.md R82, R91. -/
def Instr.operand : Instr → Operand
  | .tax | .tay | .txa | .tya | .tsx | .txs | .pha | .php | .pla
  | .plp | .inx | .iny | .dex | .dey | .rts | .clc | .sec | .cli
  | .sei | .cld | .sed | .clv | .nop | .brk | .rti => .implied
  | .aslAccumulator | .lsrAccumulator | .rolAccumulator | .rorAccumulator => .accumulator
  | .ldaImmediate value | .ldxImmediate value | .ldyImmediate value | .andImmediate value | .oraImmediate value | .eorImmediate value
  | .adcImmediate value | .sbcImmediate value | .cmpImmediate value | .cpxImmediate value | .cpyImmediate value => .immediate value
  | .ldaZeroPage zp | .ldxZeroPage zp | .ldyZeroPage zp | .staZeroPage zp | .stxZeroPage zp | .styZeroPage zp
  | .andZeroPage zp | .oraZeroPage zp | .eorZeroPage zp | .bitZeroPage zp | .adcZeroPage zp | .sbcZeroPage zp
  | .cmpZeroPage zp | .cpxZeroPage zp | .cpyZeroPage zp | .incZeroPage zp | .decZeroPage zp | .aslZeroPage zp
  | .lsrZeroPage zp | .rolZeroPage zp | .rorZeroPage zp => .memory (.zeroPage zp)
  | .ldaZeroPageX zp | .ldyZeroPageX zp | .staZeroPageX zp | .styZeroPageX zp | .andZeroPageX zp | .oraZeroPageX zp
  | .eorZeroPageX zp | .adcZeroPageX zp | .sbcZeroPageX zp | .cmpZeroPageX zp | .incZeroPageX zp | .decZeroPageX zp
  | .aslZeroPageX zp | .lsrZeroPageX zp | .rolZeroPageX zp | .rorZeroPageX zp => .memory (.zeroPageX zp)
  | .ldxZeroPageY zp | .stxZeroPageY zp => .memory (.zeroPageY zp)
  | .bcc offset | .bcs offset | .beq offset | .bne offset | .bmi offset | .bpl offset
  | .bvc offset | .bvs offset => .relative offset
  | .ldaAbsolute address | .ldxAbsolute address | .ldyAbsolute address | .staAbsolute address | .stxAbsolute address | .styAbsolute address
  | .andAbsolute address | .oraAbsolute address | .eorAbsolute address | .bitAbsolute address | .adcAbsolute address | .sbcAbsolute address
  | .cmpAbsolute address | .cpxAbsolute address | .cpyAbsolute address | .incAbsolute address | .decAbsolute address | .aslAbsolute address
  | .lsrAbsolute address | .rolAbsolute address | .rorAbsolute address | .jmpAbsolute address | .jsr address => .memory (.absolute address)
  | .ldaAbsoluteX address | .ldyAbsoluteX address | .staAbsoluteX address | .andAbsoluteX address | .oraAbsoluteX address | .eorAbsoluteX address
  | .adcAbsoluteX address | .sbcAbsoluteX address | .cmpAbsoluteX address | .incAbsoluteX address | .decAbsoluteX address | .aslAbsoluteX address
  | .lsrAbsoluteX address | .rolAbsoluteX address | .rorAbsoluteX address => .memory (.absoluteX address)
  | .ldaAbsoluteY address | .ldxAbsoluteY address | .staAbsoluteY address | .andAbsoluteY address | .oraAbsoluteY address | .eorAbsoluteY address
  | .adcAbsoluteY address | .sbcAbsoluteY address | .cmpAbsoluteY address => .memory (.absoluteY address)
  | .jmpIndirect pointer => .indirect pointer
  | .ldaIndexedIndirectX zp | .staIndexedIndirectX zp | .andIndexedIndirectX zp | .oraIndexedIndirectX zp | .eorIndexedIndirectX zp | .adcIndexedIndirectX zp
  | .sbcIndexedIndirectX zp | .cmpIndexedIndirectX zp => .memory (.indexedIndirectX zp)
  | .ldaIndirectIndexedY zp | .staIndirectIndexedY zp | .andIndirectIndexedY zp | .oraIndirectIndexedY zp | .eorIndirectIndexedY zp | .adcIndirectIndexedY zp
  | .sbcIndirectIndexedY zp | .cmpIndirectIndexedY zp => .memory (.indirectIndexedY zp)
  | .ill _ => .illegal

/-- The length in bytes of an instruction: that of its mode. 30_encoding.md R84. -/
def Instr.length (i : Instr) : Nat := i.operand.mode.length

/-- The instructions that assign PC themselves. 40_step_and_addressing.md R124, 30_encoding.md R83. -/
def Mnemonic.managesPc : Mnemonic → Bool
  | .jmp | .jsr | .rts | .bcc | .bcs | .beq | .bne | .bmi | .bpl | .bvc | .bvs => true
  | .lda | .ldx | .ldy | .sta | .stx | .sty | .tax | .tay | .txa | .tya | .tsx | .txs | .pha | .php | .pla | .plp
  | .and | .ora | .eor | .bit | .adc | .sbc | .cmp | .cpx | .cpy | .inc | .dec | .inx | .iny | .dex | .dey
  | .asl | .lsr | .rol | .ror | .clc | .sec | .cli | .sei | .cld | .sed | .clv | .nop | .brk | .rti | .ill => false

/-- The entries rejected in step 1: the Illegal ones, BRK and RTI. 30_encoding.md R83, R92, R93. -/
def Mnemonic.rejected : Mnemonic → Bool
  | .brk | .rti | .ill => true
  | .lda | .ldx | .ldy | .sta | .stx | .sty | .tax | .tay | .txa | .tya | .tsx | .txs | .pha | .php | .pla | .plp
  | .and | .ora | .eor | .bit | .adc | .sbc | .cmp | .cpx | .cpy | .inc | .dec | .inx | .iny | .dex | .dey
  | .asl | .lsr | .rol | .ror | .jmp | .jsr | .rts | .bcc | .bcs | .beq | .bne | .bmi | .bpl | .bvc | .bvs
  | .clc | .sec | .cli | .sei | .cld | .sed | .clv | .nop => false

/-- The four shift and rotate mnemonics, whose every mode is a deferred form. 30_encoding.md R94. -/
def Mnemonic.isShift : Mnemonic → Bool
  | .asl | .lsr | .rol | .ror => true
  | .lda | .ldx | .ldy | .sta | .stx | .sty | .tax | .tay | .txa | .tya | .tsx | .txs | .pha | .php | .pla | .plp
  | .and | .ora | .eor | .bit | .adc | .sbc | .cmp | .cpx | .cpy | .inc | .dec | .inx | .iny | .dex | .dey
  | .jmp | .jsr | .rts | .bcc | .bcs | .beq | .bne | .bmi | .bpl | .bvc | .bvs
  | .clc | .sec | .cli | .sei | .cld | .sed | .clv | .nop | .brk | .rti | .ill => false

/-- The 16-bit value `hi ++ lo`. 00_scope.md R8. -/
def hiLo (hi lo : Byte) : Addr := hi ++ lo

/-- Bits 7 to 0 of a 16-bit value. -/
def lowByte (w : Addr) : Byte := w.extractLsb' 0 8

/-- Bits 15 to 8 of a 16-bit value. -/
def highByte (w : Addr) : Byte := w.extractLsb' 8 8

/-- The line `0x` of the opcode map, for the operand byte `b` and the operand word `w`. 30_encoding.md R89. -/
def row0 (op b : Byte) (w : Addr) : List Instr :=
  [.brk, .oraIndexedIndirectX b, .ill op, .ill op,
   .ill op, .oraZeroPage b, .aslZeroPage b, .ill op,
   .php, .oraImmediate b, .aslAccumulator, .ill op,
   .ill op, .oraAbsolute w, .aslAbsolute w, .ill op]

/-- The line `1x` of the opcode map, for the operand byte `b` and the operand word `w`. 30_encoding.md R89. -/
def row1 (op b : Byte) (w : Addr) : List Instr :=
  [.bpl b, .oraIndirectIndexedY b, .ill op, .ill op,
   .ill op, .oraZeroPageX b, .aslZeroPageX b, .ill op,
   .clc, .oraAbsoluteY w, .ill op, .ill op,
   .ill op, .oraAbsoluteX w, .aslAbsoluteX w, .ill op]

/-- The line `2x` of the opcode map, for the operand byte `b` and the operand word `w`. 30_encoding.md R89. -/
def row2 (op b : Byte) (w : Addr) : List Instr :=
  [.jsr w, .andIndexedIndirectX b, .ill op, .ill op,
   .bitZeroPage b, .andZeroPage b, .rolZeroPage b, .ill op,
   .plp, .andImmediate b, .rolAccumulator, .ill op,
   .bitAbsolute w, .andAbsolute w, .rolAbsolute w, .ill op]

/-- The line `3x` of the opcode map, for the operand byte `b` and the operand word `w`. 30_encoding.md R89. -/
def row3 (op b : Byte) (w : Addr) : List Instr :=
  [.bmi b, .andIndirectIndexedY b, .ill op, .ill op,
   .ill op, .andZeroPageX b, .rolZeroPageX b, .ill op,
   .sec, .andAbsoluteY w, .ill op, .ill op,
   .ill op, .andAbsoluteX w, .rolAbsoluteX w, .ill op]

/-- The line `4x` of the opcode map, for the operand byte `b` and the operand word `w`. 30_encoding.md R89. -/
def row4 (op b : Byte) (w : Addr) : List Instr :=
  [.rti, .eorIndexedIndirectX b, .ill op, .ill op,
   .ill op, .eorZeroPage b, .lsrZeroPage b, .ill op,
   .pha, .eorImmediate b, .lsrAccumulator, .ill op,
   .jmpAbsolute w, .eorAbsolute w, .lsrAbsolute w, .ill op]

/-- The line `5x` of the opcode map, for the operand byte `b` and the operand word `w`. 30_encoding.md R89. -/
def row5 (op b : Byte) (w : Addr) : List Instr :=
  [.bvc b, .eorIndirectIndexedY b, .ill op, .ill op,
   .ill op, .eorZeroPageX b, .lsrZeroPageX b, .ill op,
   .cli, .eorAbsoluteY w, .ill op, .ill op,
   .ill op, .eorAbsoluteX w, .lsrAbsoluteX w, .ill op]

/-- The line `6x` of the opcode map, for the operand byte `b` and the operand word `w`. 30_encoding.md R89. -/
def row6 (op b : Byte) (w : Addr) : List Instr :=
  [.rts, .adcIndexedIndirectX b, .ill op, .ill op,
   .ill op, .adcZeroPage b, .rorZeroPage b, .ill op,
   .pla, .adcImmediate b, .rorAccumulator, .ill op,
   .jmpIndirect w, .adcAbsolute w, .rorAbsolute w, .ill op]

/-- The line `7x` of the opcode map, for the operand byte `b` and the operand word `w`. 30_encoding.md R89. -/
def row7 (op b : Byte) (w : Addr) : List Instr :=
  [.bvs b, .adcIndirectIndexedY b, .ill op, .ill op,
   .ill op, .adcZeroPageX b, .rorZeroPageX b, .ill op,
   .sei, .adcAbsoluteY w, .ill op, .ill op,
   .ill op, .adcAbsoluteX w, .rorAbsoluteX w, .ill op]

/-- The line `8x` of the opcode map, for the operand byte `b` and the operand word `w`. 30_encoding.md R89. -/
def row8 (op b : Byte) (w : Addr) : List Instr :=
  [.ill op, .staIndexedIndirectX b, .ill op, .ill op,
   .styZeroPage b, .staZeroPage b, .stxZeroPage b, .ill op,
   .dey, .ill op, .txa, .ill op,
   .styAbsolute w, .staAbsolute w, .stxAbsolute w, .ill op]

/-- The line `9x` of the opcode map, for the operand byte `b` and the operand word `w`. 30_encoding.md R89. -/
def row9 (op b : Byte) (w : Addr) : List Instr :=
  [.bcc b, .staIndirectIndexedY b, .ill op, .ill op,
   .styZeroPageX b, .staZeroPageX b, .stxZeroPageY b, .ill op,
   .tya, .staAbsoluteY w, .txs, .ill op,
   .ill op, .staAbsoluteX w, .ill op, .ill op]

/-- The line `Ax` of the opcode map, for the operand byte `b` and the operand word `w`. 30_encoding.md R89. -/
def rowA (op b : Byte) (w : Addr) : List Instr :=
  [.ldyImmediate b, .ldaIndexedIndirectX b, .ldxImmediate b, .ill op,
   .ldyZeroPage b, .ldaZeroPage b, .ldxZeroPage b, .ill op,
   .tay, .ldaImmediate b, .tax, .ill op,
   .ldyAbsolute w, .ldaAbsolute w, .ldxAbsolute w, .ill op]

/-- The line `Bx` of the opcode map, for the operand byte `b` and the operand word `w`. 30_encoding.md R89. -/
def rowB (op b : Byte) (w : Addr) : List Instr :=
  [.bcs b, .ldaIndirectIndexedY b, .ill op, .ill op,
   .ldyZeroPageX b, .ldaZeroPageX b, .ldxZeroPageY b, .ill op,
   .clv, .ldaAbsoluteY w, .tsx, .ill op,
   .ldyAbsoluteX w, .ldaAbsoluteX w, .ldxAbsoluteY w, .ill op]

/-- The line `Cx` of the opcode map, for the operand byte `b` and the operand word `w`. 30_encoding.md R89. -/
def rowC (op b : Byte) (w : Addr) : List Instr :=
  [.cpyImmediate b, .cmpIndexedIndirectX b, .ill op, .ill op,
   .cpyZeroPage b, .cmpZeroPage b, .decZeroPage b, .ill op,
   .iny, .cmpImmediate b, .dex, .ill op,
   .cpyAbsolute w, .cmpAbsolute w, .decAbsolute w, .ill op]

/-- The line `Dx` of the opcode map, for the operand byte `b` and the operand word `w`. 30_encoding.md R89. -/
def rowD (op b : Byte) (w : Addr) : List Instr :=
  [.bne b, .cmpIndirectIndexedY b, .ill op, .ill op,
   .ill op, .cmpZeroPageX b, .decZeroPageX b, .ill op,
   .cld, .cmpAbsoluteY w, .ill op, .ill op,
   .ill op, .cmpAbsoluteX w, .decAbsoluteX w, .ill op]

/-- The line `Ex` of the opcode map, for the operand byte `b` and the operand word `w`. 30_encoding.md R89. -/
def rowE (op b : Byte) (w : Addr) : List Instr :=
  [.cpxImmediate b, .sbcIndexedIndirectX b, .ill op, .ill op,
   .cpxZeroPage b, .sbcZeroPage b, .incZeroPage b, .ill op,
   .inx, .sbcImmediate b, .nop, .ill op,
   .cpxAbsolute w, .sbcAbsolute w, .incAbsolute w, .ill op]

/-- The line `Fx` of the opcode map, for the operand byte `b` and the operand word `w`. 30_encoding.md R89. -/
def rowF (op b : Byte) (w : Addr) : List Instr :=
  [.beq b, .sbcIndirectIndexedY b, .ill op, .ill op,
   .ill op, .sbcZeroPageX b, .incZeroPageX b, .ill op,
   .sed, .sbcAbsoluteY w, .ill op, .ill op,
   .ill op, .sbcAbsoluteX w, .incAbsoluteX w, .ill op]

/-- The opcode map of 30_encoding.md R89: 16 lines of 16 entries. -/
def opcodeMap (op b : Byte) (w : Addr) : List (List Instr) :=
  [row0 op b w, row1 op b w, row2 op b w, row3 op b w, row4 op b w, row5 op b w, row6 op b w, row7 op b w] ++
  [row8 op b w, row9 op b w, rowA op b w, rowB op b w, rowC op b w, rowD op b w, rowE op b w, rowF op b w]

/-- The instruction whose opcode byte is `op`, with operand bytes `b1` and `b2` as far as its length takes them.
Total: the map has an entry for each of the 256 bytes (40_step_and_addressing.md R103). 30_encoding.md R81, R89. -/
def decodeInstr (op b1 b2 : Byte) : Instr :=
  ((opcodeMap op b1 (hiLo b2 b1)).getD (op.toNat / 16) []).getD (op.toNat % 16) (.ill op)

/-- The length of an instruction, from its opcode byte alone. 30_encoding.md R84. -/
def opcodeLength (op : Byte) : Nat := (decodeInstr op 0 0).length

/-- The four classes of opcode bytes. 30_encoding.md R94. -/
inductive OpcodeClass where
  | implemented | deferredForm | rejectedSystem | illegal
  deriving DecidableEq, Repr

/-- The class of an instruction: the deferred forms are the shifts and rotates in every mode and the other
mnemonics in the three indirect modes. 30_encoding.md R94. -/
def Instr.opcodeClass (i : Instr) : OpcodeClass :=
  if i.mnemonic = .ill then .illegal
  else if i.mnemonic.rejected then .rejectedSystem
  else if i.mnemonic.isShift then .deferredForm
  else match i.operand.mode with
    | .indirect | .indexedIndirectX | .indirectIndexedY => .deferredForm
    | .implied | .accumulator | .immediate | .zeroPage | .zeroPageX | .zeroPageY | .relative
    | .absolute | .absoluteX | .absoluteY | .illegal => .implemented

/-- An entry of the opcode table. The operation (handler) of the spec's entry is the one its mnemonic names.
30_encoding.md R83. -/
structure Entry where
  opcode     : Byte
  mnemonic   : Mnemonic
  mode       : Mode
  managesPc  : Bool
  reject     : Bool
  cls        : OpcodeClass
  deriving DecidableEq, Repr

/-- The query accessor of the opcode table: pure, one entry for each byte. 10_state.md R39, 60_exceptions.md R255. -/
def lookup (op : Byte) : Entry :=
  let i := decodeInstr op 0 0
  { opcode := op, mnemonic := i.mnemonic, mode := i.operand.mode, managesPc := i.mnemonic.managesPc,
    reject := i.mnemonic.rejected, cls := i.opcodeClass }

/-- Why a list of bytes is not the start of an instruction. No byte value is refused: an Illegal byte decodes to
`ill`, which the machine rejects. -/
inductive DecodeError where
  /-- The list is empty. -/
  | noOpcode
  /-- The opcode `op` takes more operand bytes than the list holds. -/
  | missingOperandBytes (op : Byte)
  deriving DecidableEq, Repr

/-- The decoder on a list of bytes: the first instruction and the bytes after it. 30_encoding.md R80, R84. -/
def decode (bytes : List Byte) : Except DecodeError (Instr × List Byte) :=
  match bytes with
  | [] => .error .noOpcode
  | op :: rest =>
    match opcodeLength op, rest with
    | 1, _ => .ok (decodeInstr op 0 0, rest)
    | 2, b1 :: after => .ok (decodeInstr op b1 0, after)
    | 3, b1 :: b2 :: after => .ok (decodeInstr op b1 b2, after)
    | _, _ => .error (.missingOperandBytes op)

/-- The three bytes of a table word: bit 0 is the least significant bit of the first byte, and the bits above
`nbits` are 0. -/
def wordBytes (nbits w : Nat) : List Byte :=
  let v := w % 2 ^ nbits
  [BitVec.ofNat 8 v, BitVec.ofNat 8 (v / 256), BitVec.ofNat 8 (v / 65536)]

/-- The instruction the decoder reads from the bits `w` of a row of spec/opcode_table.json. -/
def decodeTableWord (nbits w : Nat) : Option Instr :=
  match decode (wordBytes nbits w) with
  | .ok (i, _) => some i
  | .error _ => none

/-! The encoder. -/

/-- The opcode byte of an instruction. 30_encoding.md R91; for `ill`, the byte itself (R92). -/
def Instr.opcode : Instr → Byte
  | .ldaImmediate _ => 0xA9
  | .ldaZeroPage _ => 0xA5
  | .ldaZeroPageX _ => 0xB5
  | .ldaAbsolute _ => 0xAD
  | .ldaAbsoluteX _ => 0xBD
  | .ldaAbsoluteY _ => 0xB9
  | .ldaIndexedIndirectX _ => 0xA1
  | .ldaIndirectIndexedY _ => 0xB1
  | .ldxImmediate _ => 0xA2
  | .ldxZeroPage _ => 0xA6
  | .ldxZeroPageY _ => 0xB6
  | .ldxAbsolute _ => 0xAE
  | .ldxAbsoluteY _ => 0xBE
  | .ldyImmediate _ => 0xA0
  | .ldyZeroPage _ => 0xA4
  | .ldyZeroPageX _ => 0xB4
  | .ldyAbsolute _ => 0xAC
  | .ldyAbsoluteX _ => 0xBC
  | .staZeroPage _ => 0x85
  | .staZeroPageX _ => 0x95
  | .staAbsolute _ => 0x8D
  | .staAbsoluteX _ => 0x9D
  | .staAbsoluteY _ => 0x99
  | .staIndexedIndirectX _ => 0x81
  | .staIndirectIndexedY _ => 0x91
  | .stxZeroPage _ => 0x86
  | .stxZeroPageY _ => 0x96
  | .stxAbsolute _ => 0x8E
  | .styZeroPage _ => 0x84
  | .styZeroPageX _ => 0x94
  | .styAbsolute _ => 0x8C
  | .tax => 0xAA
  | .tay => 0xA8
  | .txa => 0x8A
  | .tya => 0x98
  | .tsx => 0xBA
  | .txs => 0x9A
  | .pha => 0x48
  | .php => 0x08
  | .pla => 0x68
  | .plp => 0x28
  | .andImmediate _ => 0x29
  | .andZeroPage _ => 0x25
  | .andZeroPageX _ => 0x35
  | .andAbsolute _ => 0x2D
  | .andAbsoluteX _ => 0x3D
  | .andAbsoluteY _ => 0x39
  | .andIndexedIndirectX _ => 0x21
  | .andIndirectIndexedY _ => 0x31
  | .oraImmediate _ => 0x09
  | .oraZeroPage _ => 0x05
  | .oraZeroPageX _ => 0x15
  | .oraAbsolute _ => 0x0D
  | .oraAbsoluteX _ => 0x1D
  | .oraAbsoluteY _ => 0x19
  | .oraIndexedIndirectX _ => 0x01
  | .oraIndirectIndexedY _ => 0x11
  | .eorImmediate _ => 0x49
  | .eorZeroPage _ => 0x45
  | .eorZeroPageX _ => 0x55
  | .eorAbsolute _ => 0x4D
  | .eorAbsoluteX _ => 0x5D
  | .eorAbsoluteY _ => 0x59
  | .eorIndexedIndirectX _ => 0x41
  | .eorIndirectIndexedY _ => 0x51
  | .bitZeroPage _ => 0x24
  | .bitAbsolute _ => 0x2C
  | .adcImmediate _ => 0x69
  | .adcZeroPage _ => 0x65
  | .adcZeroPageX _ => 0x75
  | .adcAbsolute _ => 0x6D
  | .adcAbsoluteX _ => 0x7D
  | .adcAbsoluteY _ => 0x79
  | .adcIndexedIndirectX _ => 0x61
  | .adcIndirectIndexedY _ => 0x71
  | .sbcImmediate _ => 0xE9
  | .sbcZeroPage _ => 0xE5
  | .sbcZeroPageX _ => 0xF5
  | .sbcAbsolute _ => 0xED
  | .sbcAbsoluteX _ => 0xFD
  | .sbcAbsoluteY _ => 0xF9
  | .sbcIndexedIndirectX _ => 0xE1
  | .sbcIndirectIndexedY _ => 0xF1
  | .cmpImmediate _ => 0xC9
  | .cmpZeroPage _ => 0xC5
  | .cmpZeroPageX _ => 0xD5
  | .cmpAbsolute _ => 0xCD
  | .cmpAbsoluteX _ => 0xDD
  | .cmpAbsoluteY _ => 0xD9
  | .cmpIndexedIndirectX _ => 0xC1
  | .cmpIndirectIndexedY _ => 0xD1
  | .cpxImmediate _ => 0xE0
  | .cpxZeroPage _ => 0xE4
  | .cpxAbsolute _ => 0xEC
  | .cpyImmediate _ => 0xC0
  | .cpyZeroPage _ => 0xC4
  | .cpyAbsolute _ => 0xCC
  | .incZeroPage _ => 0xE6
  | .incZeroPageX _ => 0xF6
  | .incAbsolute _ => 0xEE
  | .incAbsoluteX _ => 0xFE
  | .decZeroPage _ => 0xC6
  | .decZeroPageX _ => 0xD6
  | .decAbsolute _ => 0xCE
  | .decAbsoluteX _ => 0xDE
  | .inx => 0xE8
  | .iny => 0xC8
  | .dex => 0xCA
  | .dey => 0x88
  | .aslAccumulator => 0x0A
  | .aslZeroPage _ => 0x06
  | .aslZeroPageX _ => 0x16
  | .aslAbsolute _ => 0x0E
  | .aslAbsoluteX _ => 0x1E
  | .lsrAccumulator => 0x4A
  | .lsrZeroPage _ => 0x46
  | .lsrZeroPageX _ => 0x56
  | .lsrAbsolute _ => 0x4E
  | .lsrAbsoluteX _ => 0x5E
  | .rolAccumulator => 0x2A
  | .rolZeroPage _ => 0x26
  | .rolZeroPageX _ => 0x36
  | .rolAbsolute _ => 0x2E
  | .rolAbsoluteX _ => 0x3E
  | .rorAccumulator => 0x6A
  | .rorZeroPage _ => 0x66
  | .rorZeroPageX _ => 0x76
  | .rorAbsolute _ => 0x6E
  | .rorAbsoluteX _ => 0x7E
  | .jmpAbsolute _ => 0x4C
  | .jmpIndirect _ => 0x6C
  | .jsr _ => 0x20
  | .rts => 0x60
  | .bcc _ => 0x90
  | .bcs _ => 0xB0
  | .beq _ => 0xF0
  | .bne _ => 0xD0
  | .bmi _ => 0x30
  | .bpl _ => 0x10
  | .bvc _ => 0x50
  | .bvs _ => 0x70
  | .clc => 0x18
  | .sec => 0x38
  | .cli => 0x58
  | .sei => 0x78
  | .cld => 0xD8
  | .sed => 0xF8
  | .clv => 0xB8
  | .nop => 0xEA
  | .brk => 0x00
  | .rti => 0x40
  | .ill opcode => opcode

/-- The bytes of a memory operand: one, or two with the low byte first. 30_encoding.md R80, R88. -/
def MemOperand.bytes : MemOperand → List Byte
  | .zeroPage zp | .zeroPageX zp | .zeroPageY zp | .indexedIndirectX zp | .indirectIndexedY zp => [zp]
  | .absolute address | .absoluteX address | .absoluteY address => [lowByte address, highByte address]

/-- The bytes of an operand. 30_encoding.md R80, R85 to R88. -/
def Operand.bytes : Operand → List Byte
  | .implied | .accumulator | .illegal => []
  | .immediate value => [value]
  | .relative offset => [offset]
  | .indirect pointer => [lowByte pointer, highByte pointer]
  | .memory m => m.bytes

/-- The bytes of an instruction, the opcode at the lowest address. 30_encoding.md R80, 20_memory.md R55. -/
def encode (i : Instr) : List Byte := i.opcode :: i.operand.bytes

end Sys2Proof
end

