-- ==== Sys2Proof/Config.lean ====
section
/-! DEFINITION. The constants of the hardware. 00_scope.md R6. None is left open: the one parameter the source has,
the bus, is taken as flat RAM (00_scope.md R7, log entry 3). -/

namespace Sys2Proof.Config

/-- Size of the flat store in bytes. -/
def memSize : Nat := 65536

/-- Page byte of the stack: the stack lives at `0x0100 | SP`. -/
def stackPage : Byte := 0x01

/-- SP after initialisation and after reset. -/
def spReset : Byte := 0xFF

/-- First byte of a loaded program image. -/
def loadBase : Addr := 0x8000

/-- Size in bytes of the vector region at the top of memory. -/
def vectorsLen : Nat := 6

/-- Low byte of the initial PC; the high byte follows at 0xFFFD. -/
def resetVector : Addr := 0xFFFC

/-- Longest image `load` accepts: 0x8000 - 6 = 32762 bytes. -/
def maxImage : Nat := 0x8000 - vectorsLen

/-- The step result that means that no valid instruction was executed. -/
def sentinel : BitVec 16 := 0x7FFF

end Sys2Proof.Config
end

