-- ==== Sys2Proof/Machine/State.lean ====
section
/-! DEFINITION. The machine's state, its reset value, the reasons a step could stop, and the setters. All the state the
spec gives (10_state.md R20 to R41), and one field of the model's own, `answer`, for what a step returns. -/

namespace Sys2Proof.Machine

/-- The eight independent 1-bit flags. 10_state.md R27. The packed byte is a view of them (`pack`), not a second copy. -/
structure Flags where
  /-- Carry. -/
  c : Bool
  /-- Zero. -/
  z : Bool
  /-- Interrupt-disable: storage only, it masks nothing (10_state.md R29). -/
  i : Bool
  /-- Decimal: stored but not acted upon (10_state.md R29). -/
  d : Bool
  /-- Break: storage only (10_state.md R29). -/
  b : Bool
  /-- The unused bit: storage only (10_state.md R29). -/
  u : Bool
  /-- Overflow. -/
  v : Bool
  /-- Negative. -/
  n : Bool
  deriving DecidableEq, Repr

/-- The flat store, as the list of its bytes that differ from `unlistedByte` (Machine/Ops.lean), addresses strictly
rising. 10_state.md R36. -/
abbrev Memory := List Host.Cell

/-- What a step returns: the opcode executed, or that no valid instruction was executed. 40_step_and_addressing.md
R107. The opcode output has no meaning on a rejected step (60_exceptions.md R258), so `invalid` carries none. -/
inductive StepResult where
  | executed (opcode : Byte)
  | invalid
  deriving DecidableEq, Repr

/-- The state of the core and of the flat memory behind its bus. -/
structure State where
  /-- Accumulator. 10_state.md R20. -/
  a : Byte
  /-- Index register X. 10_state.md R20. -/
  x : Byte
  /-- Index register Y. 10_state.md R20. -/
  y : Byte
  /-- Stack pointer into the fixed page 0x0100 to 0x01FF. 10_state.md R21. -/
  sp : Byte
  /-- Program counter. 10_state.md R25. -/
  pc : Addr
  /-- The flags. 10_state.md R27. -/
  flags : Flags
  /-- The 64 KB of flat RAM. 10_state.md R36, 20_memory.md R52. -/
  mem : Memory
  /-- The model's own field, not state of the spec: what the latest step returned (40_step_and_addressing.md R107),
  `none` before the first. Nothing reads it. DESIGN CHOICE, safe: log entry 2. -/
  answer : Option StepResult
  deriving DecidableEq, Repr

/-- The reasons a step could stop with a fault: there is none. No access, handler or PC can fail (20_memory.md R50,
40_step_and_addressing.md R106, 60_exceptions.md R245), and the one exception, the rejection of an opcode, leaves the
machine ready for the next step (60_exceptions.md R247, R250), so it is a next state. Safe or unsafe: log entry 1. -/
inductive Fault where
  deriving DecidableEq, Repr

/-- The reasons the model could decline to give a step a meaning. -/
inductive Refusal where
  /-- Raised by an arm of `exec` whose instruction has no meaning yet; every arm has one, so no step raises it. Safe:
  it stops where the hardware goes on. -/
  | notModelled (mnemonic : String)
  deriving DecidableEq, Repr

/-- What a meaning and a step answer. -/
abbrev Answer := Host.Outcome State Fault Refusal

/-- All eight flags 0. 70_reset_and_hazards.md R262. -/
def Flags.allClear : Flags :=
  { c := false, z := false, i := false, d := false, b := false, u := false, v := false, n := false }

/-- The machine right after power-on initialisation, before any load. 10_state.md R40, 70_reset_and_hazards.md R260:
`A = X = Y = 0`, `SP = 0xFF`, `PC = 0x8000`, flags 0, memory as `unlistedByte` says with nothing listed. -/
def State.reset : State :=
  { a := 0x00, x := 0x00, y := 0x00, sp := Config.spReset, pc := Config.loadBase, flags := Flags.allClear,
    mem := [], answer := none }

/-! The setters: one for each field. -/

/-- `s` with A set to `v`. -/
def State.setA (s : State) (v : Byte) : State := { s with a := v }

/-- `s` with X set to `v`. -/
def State.setX (s : State) (v : Byte) : State := { s with x := v }

/-- `s` with Y set to `v`. -/
def State.setY (s : State) (v : Byte) : State := { s with y := v }

/-- `s` with SP set to `v`. -/
def State.setSp (s : State) (v : Byte) : State := { s with sp := v }

/-- `s` with PC set to `v`. -/
def State.setPc (s : State) (v : Addr) : State := { s with pc := v }

/-- `s` with the eight flags set to `v`. -/
def State.setFlags (s : State) (v : Flags) : State := { s with flags := v }

/-- `s` with memory set to `v`. -/
def State.setMem (s : State) (v : Memory) : State := { s with mem := v }

/-- `s` with the answer set to `v`. -/
def State.setAnswer (s : State) (v : Option StepResult) : State := { s with answer := v }

end Sys2Proof.Machine
end

