-- ==== Sys2Proof/Machine/Ops.lean ====
section
/-! DEFINITION. The shared operations: memory and its canonical form, the bus, the stack, fetching an instruction, how an
executed instruction completes, and taking the one exception.

There is no return from an exception beside it: nothing is entered, and RTI is itself rejected (60_exceptions.md R249). -/

namespace Sys2Proof.Machine

/-! Memory. -/

/-- What a byte that nothing has written since power-on reads as: 0x00, but for the high byte of the reset vector,
which initialisation sets to 0x80 (the vector is 0x8000). 70_reset_and_hazards.md R260, R261, 20_memory.md R52.
Log entry 4. -/
def unlistedByte (address : Nat) : Byte :=
  if address = Config.resetVector.toNat + 1 then highByte Config.loadBase
  else if address = Config.resetVector.toNat then lowByte Config.loadBase
  else 0x00

/-- The byte at an address. -/
def Memory.read (m : Memory) (address : Nat) : Byte :=
  match m with
  | [] => unlistedByte address
  | (k, v) :: rest => if k = address then v else Memory.read rest address

/-- List `v` at an address, in address order, in place of what was listed there. -/
def Memory.insert (m : Memory) (address : Nat) (v : Byte) : Memory :=
  match m with
  | [] => [(address, v)]
  | (k, w) :: rest =>
    if address < k then (address, v) :: (k, w) :: rest
    else if address = k then (address, v) :: rest
    else (k, w) :: Memory.insert rest address v

/-- List nothing at an address. -/
def Memory.erase (m : Memory) (address : Nat) : Memory :=
  match m with
  | [] => []
  | (k, w) :: rest => if k = address then Memory.erase rest address else (k, w) :: Memory.erase rest address

/-- Store a byte: listed, or not listed where it is what an unlisted address reads as. -/
def Memory.write (m : Memory) (address : Nat) (v : Byte) : Memory :=
  if v = unlistedByte address then m.erase address else m.insert address v

/-- The canonical form: addresses of the 16-bit space, strictly rising, no entry equal to what an unlisted address
reads as. -/
abbrev Memory.wf (m : Memory) : Prop :=
  m.Pairwise (fun p q => p.1 < q.1) ∧ ∀ p ∈ m, p.1 < Config.memSize ∧ p.2 ≠ unlistedByte p.1

/-! The bus: two operations on one byte that always succeed. 20_memory.md R50, R52. The success result of `write` is
ignored (R51), so the model has none. -/

/-- `MemRead(address, 1)`. 00_scope.md R10. -/
def busRead (s : State) (address : Addr) : Byte := s.mem.read address.toNat

/-- `MemWrite(address, 1, v)`. 00_scope.md R10. -/
def busWrite (s : State) (address : Addr) (v : Byte) : State := s.setMem (s.mem.write address.toNat v)

/-- A byte as a 16-bit number. 00_scope.md R8. -/
def zext16 (b : Byte) : Addr := b.setWidth 16

/-- A byte's signed reading as a 16-bit number modulo 65536. 00_scope.md R8. -/
def sext16 (b : Byte) : Addr := b.signExtend 16

/-- `MemRead(address, 2)`: little-endian, the second address modulo 65536. 00_scope.md R10. -/
def busReadWord (s : State) (address : Addr) : Addr := hiLo (busRead s (address + 1)) (busRead s address)

/-- `MemReadZP16(zp)`: little-endian, the second address wraps inside page zero. 00_scope.md R10. -/
def busReadZeroPageWord (s : State) (zp : Byte) : Addr :=
  hiLo (busRead s (zext16 (zp + 1))) (busRead s (zext16 zp))

/-! The stack. -/

/-- The stack address `0x0100 | SP`, the 16-bit value `0x01 ++ SP`. 10_state.md R21. -/
def stackAddress (sp : Byte) : Addr := hiLo Config.stackPage sp

/-- `Push(v)`: write at the stack address, then decrement SP modulo 256. 42_transfer_stack.md R150. -/
def push (s : State) (v : Byte) : State := (busWrite s (stackAddress s.sp) v).setSp (s.sp - 1)

/-- The state after `Pop()`: SP incremented modulo 256, the byte still in memory. 42_transfer_stack.md R151. -/
def popped (s : State) : State := s.setSp (s.sp + 1)

/-- The byte `Pop()` returns: the one at the stack address after the increment. 42_transfer_stack.md R151. -/
def popByte (s : State) : Byte := busRead s (stackAddress (s.sp + 1))

/-! The step's common parts. -/

/-- The instruction at PC: the opcode byte, and the bytes after it as far as its length takes them, read from the bus
at the time of the step; addresses modulo 65536. 40_step_and_addressing.md R102, R104, 20_memory.md R72. -/
def fetchInstr (s : State) : Instr :=
  decodeInstr (busRead s s.pc) (busRead s (s.pc + 1)) (busRead s (s.pc + 2))

/-- PC advanced by the default delta, modulo 65536. 40_step_and_addressing.md R123. -/
def advancePc (s : State) (length : Nat) : State := s.setPc (s.pc + BitVec.ofNat 16 length)

/-- The end of an instruction whose handler assigned PC itself: the engine adds nothing and the step returns the
opcode. 40_step_and_addressing.md R107, R124. -/
def completeManaged (i : Instr) (handled : State) : Answer :=
  .next (handled.setAnswer (some (.executed i.opcode)))

/-- The end of every other executed instruction: `handled` is the state its handler left, which has not written PC;
the engine adds the instruction's length. 40_step_and_addressing.md R107, R123. -/
def complete (i : Instr) (handled : State) : Answer := completeManaged i (advancePc handled i.length)

/-- `raise InvalidInstruction`, the one exception. Its entry sequence is empty (60_exceptions.md R247): no register, no
flag, no byte of memory is written, PC stays at the offending opcode, no vector is read, no mode changes (R241 to
R243); the step returns the sentinel (R240). The host may call step again (R250): a next state. Log entry 1. -/
def raiseInvalidInstruction (s : State) : Answer := .next (s.setAnswer (some .invalid))

/-- The 16-bit step result: the opcode byte zero-extended, or 0x7FFF. 40_step_and_addressing.md R107. -/
def StepResult.code : StepResult → BitVec 16
  | .executed opcode => zext16 opcode
  | .invalid => Config.sentinel

end Sys2Proof.Machine
end

