-- ==== Sys2Proof/Machine/Flags.lean ====
section
/-! DEFINITION. Every flag computation of the spec, and the 8-bit arithmetic the flags come from. -/

namespace Sys2Proof.Machine

/-- `SetZN(v)`. 10_state.md R30. -/
def setZN (v : Byte) (f : Flags) : Flags := { f with z := v == 0, n := v.getLsbD 7 }

/-- `Pack()`: the flags as a byte, `N*128 + V*64 + U*32 + B*16 + D*8 + I*4 + Z*2 + C`. 10_state.md R31, R33. -/
def pack (f : Flags) : Byte :=
  BitVec.ofNat 8 (f.n.toNat * 128 + f.v.toNat * 64 + f.u.toNat * 32 + f.b.toNat * 16 + f.d.toNat * 8 +
    f.i.toNat * 4 + f.z.toNat * 2 + f.c.toNat)

/-- `Unpack(b)`: all eight flags from the bits of a byte. 10_state.md R32, R33. -/
def unpack (p : Byte) : Flags :=
  { c := p.getLsbD 0, z := p.getLsbD 1, i := p.getLsbD 2, d := p.getLsbD 3, b := p.getLsbD 4, u := p.getLsbD 5,
    v := p.getLsbD 6, n := p.getLsbD 7 }

/-- The exact sum of an addition with carry, 0 to 511. 44_arithmetic_compare.md R170. -/
def addSum (a m : Byte) (carry : Bool) : Nat := a.toNat + m.toNat + carry.toNat

/-- The 8-bit result of an addition with carry. 44_arithmetic_compare.md R170. -/
def addResult (a m : Byte) (carry : Bool) : Byte := BitVec.ofNat 8 (addSum a m carry)

/-- The overflow of an addition: operand and accumulator have the same sign and the result's differs.
44_arithmetic_compare.md R170. -/
def addOverflow (a m : Byte) (carry : Bool) : Bool :=
  (~~~(a ^^^ m) &&& (a ^^^ addResult a m carry) &&& 0x80) != 0

/-- The flags an addition with carry leaves; D is not read. 44_arithmetic_compare.md R170, R177. -/
def addFlags (a m : Byte) (f : Flags) : Flags :=
  setZN (addResult a m f.c) { f with c := decide (addSum a m f.c > 0xFF), v := addOverflow a m f.c }

/-- The complement of an operand, which a subtraction adds. 44_arithmetic_compare.md R171. -/
def complement (m : Byte) : Byte := m ^^^ 0xFF

/-- The flags a comparison of a register with an operand leaves; V and the old C are not touched.
44_arithmetic_compare.md R172. -/
def compareFlags (register m : Byte) (f : Flags) : Flags :=
  { f with c := decide (register.toNat ≥ m.toNat), z := register == m, n := (register - m).getLsbD 7 }

/-- The flags BIT leaves: V from bit 6, Z and N from the AND of A and the operand. 43_logical.md R168. -/
def bitFlags (a m : Byte) (f : Flags) : Flags := setZN (a &&& m) { f with v := (a &&& m).getLsbD 6 }

/-- The result of a shift or rotate by one place and the bit shifted out of it. 46_shift_rotate.md R190. -/
structure Shifted where
  result : Byte
  out    : Bool
  deriving DecidableEq, Repr

/-- ASL: up one place, 0 into bit 0, bit 7 out. 46_shift_rotate.md R191. -/
def shiftLeft (v : Byte) : Shifted := { result := v <<< 1, out := v.getLsbD 7 }

/-- LSR: down one place, 0 into bit 7, bit 0 out. 46_shift_rotate.md R192. -/
def shiftRight (v : Byte) : Shifted := { result := v >>> 1, out := v.getLsbD 0 }

/-- ROL: up one place, the old carry into bit 0, bit 7 out. 46_shift_rotate.md R193. -/
def rotateLeft (v : Byte) (carry : Bool) : Shifted :=
  { result := v <<< 1 ||| BitVec.ofNat 8 carry.toNat, out := v.getLsbD 7 }

/-- ROR: down one place, the old carry into bit 7, bit 0 out. 46_shift_rotate.md R194. -/
def rotateRight (v : Byte) (carry : Bool) : Shifted :=
  { result := v >>> 1 ||| BitVec.ofNat 8 (carry.toNat * 128), out := v.getLsbD 0 }

/-- The flags a shift or rotate leaves: C the bit out, Z and N from the result, V untouched. 46_shift_rotate.md R190. -/
def shiftFlags (r : Shifted) (f : Flags) : Flags := setZN r.result { f with c := r.out }

end Sys2Proof.Machine
end

