-- ==== Sys2Proof/Machine/Operands.lean ====
section
/-! DEFINITION. The address resolver: every addressing mode. The resolver writes no state (40_step_and_addressing.md
R105); it reads PC's bytes (already in the operand), X, Y and the bus. -/

namespace Sys2Proof.Machine

/-- The address a memory operand names. Zero-page sums are modulo 256, 16-bit sums modulo 65536.
40_step_and_addressing.md R111 to R113, R115 to R117, R121, R122. -/
def effectiveAddress (m : MemOperand) (s : State) : Addr :=
  match m with
  | .zeroPage zp => zext16 zp
  | .zeroPageX zp => zext16 (zp + s.x)
  | .zeroPageY zp => zext16 (zp + s.y)
  | .absolute address => address
  | .absoluteX address => address + zext16 s.x
  | .absoluteY address => address + zext16 s.y
  | .indexedIndirectX zp => busReadZeroPageWord s (zp + s.x)
  | .indirectIndexedY zp => busReadZeroPageWord s zp + zext16 s.y

/-- The operand byte the resolver reads in a memory mode, whether or not the handler uses it. 20_memory.md R60. -/
def memoryByte (m : MemOperand) (s : State) : Byte := busRead s (effectiveAddress m s)

/-- The address `JMP ($nnnn)` reads through its pointer; the pointer increments as a 16-bit number, with no page wrap.
40_step_and_addressing.md R120. -/
def indirectTarget (pointer : Addr) (s : State) : Addr := busReadWord s pointer

/-- The raw byte fetched at PC + 1 in the zero-page modes. 10_state.md R37. -/
def zeroPageByte (m : MemOperand) : Option Byte :=
  match m with
  | .zeroPage zp | .zeroPageX zp | .zeroPageY zp | .indexedIndirectX zp | .indirectIndexedY zp => some zp
  | .absolute _ | .absoluteX _ | .absoluteY _ => none

/-- The Instruction Context: a field the mode does not populate has no value. Transient, not state. 10_state.md R37. -/
structure Context where
  operand : Option Byte
  zp      : Option Byte
  offset  : Option Byte
  address : Option Addr
  deriving DecidableEq, Repr

/-- The context with no field populated. -/
def Context.empty : Context := { operand := none, zp := none, offset := none, address := none }

/-- Step 2 of a step: the context of an operand, built fresh. 40_step_and_addressing.md R105, R108 to R122, R128. -/
def resolve (o : Operand) (s : State) : Context :=
  match o with
  | .implied | .accumulator | .illegal => Context.empty
  | .immediate value => { Context.empty with operand := some value }
  | .relative offset => { Context.empty with operand := some offset, offset := some offset }
  | .indirect pointer => { Context.empty with address := some (indirectTarget pointer s) }
  | .memory m =>
    { operand := some (memoryByte m s), zp := zeroPageByte m, offset := none,
      address := some (effectiveAddress m s) }

end Sys2Proof.Machine
end

