-- ==== Sys2Proof/Machine/Arithmetic.lean ====
section
/-! DEFINITION. Add, subtract and compare. 44_arithmetic_compare.md. -/

namespace Sys2Proof.Machine

/-- Add `m` and the carry to A; C, V, Z, N from the sum. R170. -/
def addToA (m : Byte) (s : State) : State :=
  (s.setA (addResult s.a m s.flags.c)).setFlags (addFlags s.a m s.flags)

/-- ADC. D is not read (R177). R170. -/
def opAdc (operand : Byte) (s : State) : State := addToA operand s

/-- SBC: the addition of the operand's complement, so C = 1 is "no borrow". R171, decision D19. -/
def opSbc (operand : Byte) (s : State) : State := addToA (complement operand) s

/-- CMP: A against the operand for all three flags. R172, R175. -/
def opCmp (operand : Byte) (s : State) : State := s.setFlags (compareFlags s.a operand s.flags)

/-- CPX: X against the operand for all three flags. R173, R175. -/
def opCpx (operand : Byte) (s : State) : State := s.setFlags (compareFlags s.x operand s.flags)

/-- CPY: Y against the operand for all three flags. R174, R175. -/
def opCpy (operand : Byte) (s : State) : State := s.setFlags (compareFlags s.y operand s.flags)

/-! The meaning of each row. -/

/-- ADC Immediate, 0x69. R170, R110. -/
def execAdcImmediate (value : Byte) (s : State) : Answer := complete (.adcImmediate value) (opAdc value s)

/-- ADC ZeroPage, 0x65. R170, R111. -/
def execAdcZeroPage (zp : Byte) (s : State) : Answer :=
  complete (.adcZeroPage zp) (opAdc (memoryByte (.zeroPage zp) s) s)

/-- ADC ZeroPageX, 0x75. R170, R112. -/
def execAdcZeroPageX (zp : Byte) (s : State) : Answer :=
  complete (.adcZeroPageX zp) (opAdc (memoryByte (.zeroPageX zp) s) s)

/-- ADC Absolute, 0x6D. R170, R115. -/
def execAdcAbsolute (address : Addr) (s : State) : Answer :=
  complete (.adcAbsolute address) (opAdc (memoryByte (.absolute address) s) s)

/-- ADC AbsoluteX, 0x7D. R170, R116. -/
def execAdcAbsoluteX (address : Addr) (s : State) : Answer :=
  complete (.adcAbsoluteX address) (opAdc (memoryByte (.absoluteX address) s) s)

/-- ADC AbsoluteY, 0x79. R170, R117. -/
def execAdcAbsoluteY (address : Addr) (s : State) : Answer :=
  complete (.adcAbsoluteY address) (opAdc (memoryByte (.absoluteY address) s) s)

/-- ADC IndexedIndirectX, 0x61. R170, R121. -/
def execAdcIndexedIndirectX (zp : Byte) (s : State) : Answer :=
  complete (.adcIndexedIndirectX zp) (opAdc (memoryByte (.indexedIndirectX zp) s) s)

/-- ADC IndirectIndexedY, 0x71. R170, R122. -/
def execAdcIndirectIndexedY (zp : Byte) (s : State) : Answer :=
  complete (.adcIndirectIndexedY zp) (opAdc (memoryByte (.indirectIndexedY zp) s) s)

/-- SBC Immediate, 0xE9. R171, R110. -/
def execSbcImmediate (value : Byte) (s : State) : Answer := complete (.sbcImmediate value) (opSbc value s)

/-- SBC ZeroPage, 0xE5. R171, R111. -/
def execSbcZeroPage (zp : Byte) (s : State) : Answer :=
  complete (.sbcZeroPage zp) (opSbc (memoryByte (.zeroPage zp) s) s)

/-- SBC ZeroPageX, 0xF5. R171, R112. -/
def execSbcZeroPageX (zp : Byte) (s : State) : Answer :=
  complete (.sbcZeroPageX zp) (opSbc (memoryByte (.zeroPageX zp) s) s)

/-- SBC Absolute, 0xED. R171, R115. -/
def execSbcAbsolute (address : Addr) (s : State) : Answer :=
  complete (.sbcAbsolute address) (opSbc (memoryByte (.absolute address) s) s)

/-- SBC AbsoluteX, 0xFD. R171, R116. -/
def execSbcAbsoluteX (address : Addr) (s : State) : Answer :=
  complete (.sbcAbsoluteX address) (opSbc (memoryByte (.absoluteX address) s) s)

/-- SBC AbsoluteY, 0xF9. R171, R117. -/
def execSbcAbsoluteY (address : Addr) (s : State) : Answer :=
  complete (.sbcAbsoluteY address) (opSbc (memoryByte (.absoluteY address) s) s)

/-- SBC IndexedIndirectX, 0xE1. R171, R121. -/
def execSbcIndexedIndirectX (zp : Byte) (s : State) : Answer :=
  complete (.sbcIndexedIndirectX zp) (opSbc (memoryByte (.indexedIndirectX zp) s) s)

/-- SBC IndirectIndexedY, 0xF1. R171, R122. -/
def execSbcIndirectIndexedY (zp : Byte) (s : State) : Answer :=
  complete (.sbcIndirectIndexedY zp) (opSbc (memoryByte (.indirectIndexedY zp) s) s)

/-- CMP Immediate, 0xC9. R172, R110. -/
def execCmpImmediate (value : Byte) (s : State) : Answer := complete (.cmpImmediate value) (opCmp value s)

/-- CMP ZeroPage, 0xC5. R172, R111. -/
def execCmpZeroPage (zp : Byte) (s : State) : Answer :=
  complete (.cmpZeroPage zp) (opCmp (memoryByte (.zeroPage zp) s) s)

/-- CMP ZeroPageX, 0xD5. R172, R112. -/
def execCmpZeroPageX (zp : Byte) (s : State) : Answer :=
  complete (.cmpZeroPageX zp) (opCmp (memoryByte (.zeroPageX zp) s) s)

/-- CMP Absolute, 0xCD. R172, R115. -/
def execCmpAbsolute (address : Addr) (s : State) : Answer :=
  complete (.cmpAbsolute address) (opCmp (memoryByte (.absolute address) s) s)

/-- CMP AbsoluteX, 0xDD. R172, R116. -/
def execCmpAbsoluteX (address : Addr) (s : State) : Answer :=
  complete (.cmpAbsoluteX address) (opCmp (memoryByte (.absoluteX address) s) s)

/-- CMP AbsoluteY, 0xD9. R172, R117. -/
def execCmpAbsoluteY (address : Addr) (s : State) : Answer :=
  complete (.cmpAbsoluteY address) (opCmp (memoryByte (.absoluteY address) s) s)

/-- CMP IndexedIndirectX, 0xC1. R172, R121. -/
def execCmpIndexedIndirectX (zp : Byte) (s : State) : Answer :=
  complete (.cmpIndexedIndirectX zp) (opCmp (memoryByte (.indexedIndirectX zp) s) s)

/-- CMP IndirectIndexedY, 0xD1. R172, R122. -/
def execCmpIndirectIndexedY (zp : Byte) (s : State) : Answer :=
  complete (.cmpIndirectIndexedY zp) (opCmp (memoryByte (.indirectIndexedY zp) s) s)

/-- CPX Immediate, 0xE0. R173, R110. -/
def execCpxImmediate (value : Byte) (s : State) : Answer := complete (.cpxImmediate value) (opCpx value s)

/-- CPX ZeroPage, 0xE4. R173, R111. -/
def execCpxZeroPage (zp : Byte) (s : State) : Answer :=
  complete (.cpxZeroPage zp) (opCpx (memoryByte (.zeroPage zp) s) s)

/-- CPX Absolute, 0xEC. R173, R115. -/
def execCpxAbsolute (address : Addr) (s : State) : Answer :=
  complete (.cpxAbsolute address) (opCpx (memoryByte (.absolute address) s) s)

/-- CPY Immediate, 0xC0. R174, R110. -/
def execCpyImmediate (value : Byte) (s : State) : Answer := complete (.cpyImmediate value) (opCpy value s)

/-- CPY ZeroPage, 0xC4. R174, R111. -/
def execCpyZeroPage (zp : Byte) (s : State) : Answer :=
  complete (.cpyZeroPage zp) (opCpy (memoryByte (.zeroPage zp) s) s)

/-- CPY Absolute, 0xCC. R174, R115. -/
def execCpyAbsolute (address : Addr) (s : State) : Answer :=
  complete (.cpyAbsolute address) (opCpy (memoryByte (.absolute address) s) s)

end Sys2Proof.Machine
end

