-- ==== Sys2Proof/Machine/Branch.lean ====
section
/-! DEFINITION. Conditional branches. 47_jump_branch.md. A branch tests one flag and writes only PC; the handler adds its own 2 when
it is not taken (40_step_and_addressing.md R124). -/

namespace Sys2Proof.Machine

/-- The target of a taken branch: `u16(PC + 2 + sext_8(ctx.offset))`. 30_encoding.md R87, R203. -/
def branchTarget (offset : Byte) (s : State) : Addr := s.pc + 2 + sext16 offset

/-- `if cond then PC <- u16(PC + 2 + sext_8(ctx.offset)) else PC <- u16(PC + 2)`. R203. -/
def branch (taken : Bool) (offset : Byte) (s : State) : State :=
  s.setPc (if taken then branchTarget offset s else s.pc + 2)

/-- Branch if C = 0. R204. -/
def opBcc (offset : Byte) (s : State) : State := branch (!s.flags.c) offset s

/-- Branch if C = 1. R205. -/
def opBcs (offset : Byte) (s : State) : State := branch s.flags.c offset s

/-- Branch if Z = 1. R206. -/
def opBeq (offset : Byte) (s : State) : State := branch s.flags.z offset s

/-- Branch if Z = 0. R207. -/
def opBne (offset : Byte) (s : State) : State := branch (!s.flags.z) offset s

/-- Branch if N = 1. R208. -/
def opBmi (offset : Byte) (s : State) : State := branch s.flags.n offset s

/-- Branch if N = 0. R209. -/
def opBpl (offset : Byte) (s : State) : State := branch (!s.flags.n) offset s

/-- Branch if V = 0. R210. -/
def opBvc (offset : Byte) (s : State) : State := branch (!s.flags.v) offset s

/-- Branch if V = 1. R211. -/
def opBvs (offset : Byte) (s : State) : State := branch s.flags.v offset s

/-! The meaning of each row. -/

/-- BCC Relative, 0x90. R204, R114. -/
def execBcc (offset : Byte) (s : State) : Answer := completeManaged (.bcc offset) (opBcc offset s)

/-- BCS Relative, 0xB0. R205, R114. -/
def execBcs (offset : Byte) (s : State) : Answer := completeManaged (.bcs offset) (opBcs offset s)

/-- BEQ Relative, 0xF0. R206, R114. -/
def execBeq (offset : Byte) (s : State) : Answer := completeManaged (.beq offset) (opBeq offset s)

/-- BNE Relative, 0xD0. R207, R114. -/
def execBne (offset : Byte) (s : State) : Answer := completeManaged (.bne offset) (opBne offset s)

/-- BMI Relative, 0x30. R208, R114. -/
def execBmi (offset : Byte) (s : State) : Answer := completeManaged (.bmi offset) (opBmi offset s)

/-- BPL Relative, 0x10. R209, R114. -/
def execBpl (offset : Byte) (s : State) : Answer := completeManaged (.bpl offset) (opBpl offset s)

/-- BVC Relative, 0x50. R210, R114. -/
def execBvc (offset : Byte) (s : State) : Answer := completeManaged (.bvc offset) (opBvc offset s)

/-- BVS Relative, 0x70. R211, R114. -/
def execBvs (offset : Byte) (s : State) : Answer := completeManaged (.bvs offset) (opBvs offset s)

end Sys2Proof.Machine
end

