-- ==== Sys2Proof/Machine/FlagNop.lean ====
section
/-! DEFINITION. Flag set and clear, and NOP. 48_flag_nop_system.md. Each writes one flag and nothing else. -/

namespace Sys2Proof.Machine

/-- `C <- 0`. R220. -/
def opClc (s : State) : State := s.setFlags { s.flags with c := false }

/-- `C <- 1`. R221. -/
def opSec (s : State) : State := s.setFlags { s.flags with c := true }

/-- `I <- 0`. R222. -/
def opCli (s : State) : State := s.setFlags { s.flags with i := false }

/-- `I <- 1`. R223. -/
def opSei (s : State) : State := s.setFlags { s.flags with i := true }

/-- `D <- 0`. R224. -/
def opCld (s : State) : State := s.setFlags { s.flags with d := false }

/-- `D <- 1`. R225. -/
def opSed (s : State) : State := s.setFlags { s.flags with d := true }

/-- `V <- 0`. R226. -/
def opClv (s : State) : State := s.setFlags { s.flags with v := false }

/-- The handler changes nothing. R227. -/
def opNop (s : State) : State := s

/-! The meaning of each row. -/

/-- CLC Implied, 0x18. R220, R108. -/
def execClc (s : State) : Answer := complete .clc (opClc s)

/-- SEC Implied, 0x38. R221, R108. -/
def execSec (s : State) : Answer := complete .sec (opSec s)

/-- CLI Implied, 0x58. R222, R108. -/
def execCli (s : State) : Answer := complete .cli (opCli s)

/-- SEI Implied, 0x78. R223, R108. -/
def execSei (s : State) : Answer := complete .sei (opSei s)

/-- CLD Implied, 0xD8. R224, R108. -/
def execCld (s : State) : Answer := complete .cld (opCld s)

/-- SED Implied, 0xF8. R225, R108. -/
def execSed (s : State) : Answer := complete .sed (opSed s)

/-- CLV Implied, 0xB8. R226, R108. -/
def execClv (s : State) : Answer := complete .clv (opClv s)

/-- NOP Implied, 0xEA. R227, R108. -/
def execNop (s : State) : Answer := complete .nop (opNop s)

end Sys2Proof.Machine
end

