-- ==== Sys2Proof/Machine/LoadStore.lean ====
section
/-! DEFINITION. Load and store. Each handler is the pseudocode of its rule: a load takes the operand byte the mode resolved, a store
the address; the meaning of a row resolves its operand, runs the handler and completes. 41_load_store.md. -/

namespace Sys2Proof.Machine

/-- Write A and set Z and N from it. -/
def loadA (v : Byte) (s : State) : State := (s.setA v).setFlags (setZN v s.flags)

/-- Write X and set Z and N from it. -/
def loadX (v : Byte) (s : State) : State := (s.setX v).setFlags (setZN v s.flags)

/-- Write Y and set Z and N from it. -/
def loadY (v : Byte) (s : State) : State := (s.setY v).setFlags (setZN v s.flags)

/-- `A <- ctx.operand; SetZN(A)`. R140. -/
def opLda (operand : Byte) (s : State) : State := loadA operand s

/-- `X <- ctx.operand; SetZN(X)`. R141. -/
def opLdx (operand : Byte) (s : State) : State := loadX operand s

/-- `Y <- ctx.operand; SetZN(Y)`. R142. -/
def opLdy (operand : Byte) (s : State) : State := loadY operand s

/-- `MemWrite(ctx.address, 1, A)`; no flag. R143. -/
def opSta (address : Addr) (s : State) : State := busWrite s address s.a

/-- `MemWrite(ctx.address, 1, X)`; no flag. R144. -/
def opStx (address : Addr) (s : State) : State := busWrite s address s.x

/-- `MemWrite(ctx.address, 1, Y)`; no flag. R145. -/
def opSty (address : Addr) (s : State) : State := busWrite s address s.y

/-! The meaning of each row. -/

/-- LDA Immediate, 0xA9. R140, R110. -/
def execLdaImmediate (value : Byte) (s : State) : Answer := complete (.ldaImmediate value) (opLda value s)

/-- LDA ZeroPage, 0xA5. R140, R111. -/
def execLdaZeroPage (zp : Byte) (s : State) : Answer :=
  complete (.ldaZeroPage zp) (opLda (memoryByte (.zeroPage zp) s) s)

/-- LDA ZeroPageX, 0xB5. R140, R112. -/
def execLdaZeroPageX (zp : Byte) (s : State) : Answer :=
  complete (.ldaZeroPageX zp) (opLda (memoryByte (.zeroPageX zp) s) s)

/-- LDA Absolute, 0xAD. R140, R115. -/
def execLdaAbsolute (address : Addr) (s : State) : Answer :=
  complete (.ldaAbsolute address) (opLda (memoryByte (.absolute address) s) s)

/-- LDA AbsoluteX, 0xBD. R140, R116. -/
def execLdaAbsoluteX (address : Addr) (s : State) : Answer :=
  complete (.ldaAbsoluteX address) (opLda (memoryByte (.absoluteX address) s) s)

/-- LDA AbsoluteY, 0xB9. R140, R117. -/
def execLdaAbsoluteY (address : Addr) (s : State) : Answer :=
  complete (.ldaAbsoluteY address) (opLda (memoryByte (.absoluteY address) s) s)

/-- LDA IndexedIndirectX, 0xA1. R140, R121. -/
def execLdaIndexedIndirectX (zp : Byte) (s : State) : Answer :=
  complete (.ldaIndexedIndirectX zp) (opLda (memoryByte (.indexedIndirectX zp) s) s)

/-- LDA IndirectIndexedY, 0xB1. R140, R122. -/
def execLdaIndirectIndexedY (zp : Byte) (s : State) : Answer :=
  complete (.ldaIndirectIndexedY zp) (opLda (memoryByte (.indirectIndexedY zp) s) s)

/-- LDX Immediate, 0xA2. R141, R110. -/
def execLdxImmediate (value : Byte) (s : State) : Answer := complete (.ldxImmediate value) (opLdx value s)

/-- LDX ZeroPage, 0xA6. R141, R111. -/
def execLdxZeroPage (zp : Byte) (s : State) : Answer :=
  complete (.ldxZeroPage zp) (opLdx (memoryByte (.zeroPage zp) s) s)

/-- LDX ZeroPageY, 0xB6. R141, R113. -/
def execLdxZeroPageY (zp : Byte) (s : State) : Answer :=
  complete (.ldxZeroPageY zp) (opLdx (memoryByte (.zeroPageY zp) s) s)

/-- LDX Absolute, 0xAE. R141, R115. -/
def execLdxAbsolute (address : Addr) (s : State) : Answer :=
  complete (.ldxAbsolute address) (opLdx (memoryByte (.absolute address) s) s)

/-- LDX AbsoluteY, 0xBE. R141, R117. -/
def execLdxAbsoluteY (address : Addr) (s : State) : Answer :=
  complete (.ldxAbsoluteY address) (opLdx (memoryByte (.absoluteY address) s) s)

/-- LDY Immediate, 0xA0. R142, R110. -/
def execLdyImmediate (value : Byte) (s : State) : Answer := complete (.ldyImmediate value) (opLdy value s)

/-- LDY ZeroPage, 0xA4. R142, R111. -/
def execLdyZeroPage (zp : Byte) (s : State) : Answer :=
  complete (.ldyZeroPage zp) (opLdy (memoryByte (.zeroPage zp) s) s)

/-- LDY ZeroPageX, 0xB4. R142, R112. -/
def execLdyZeroPageX (zp : Byte) (s : State) : Answer :=
  complete (.ldyZeroPageX zp) (opLdy (memoryByte (.zeroPageX zp) s) s)

/-- LDY Absolute, 0xAC. R142, R115. -/
def execLdyAbsolute (address : Addr) (s : State) : Answer :=
  complete (.ldyAbsolute address) (opLdy (memoryByte (.absolute address) s) s)

/-- LDY AbsoluteX, 0xBC. R142, R116. -/
def execLdyAbsoluteX (address : Addr) (s : State) : Answer :=
  complete (.ldyAbsoluteX address) (opLdy (memoryByte (.absoluteX address) s) s)

/-- STA ZeroPage, 0x85. R143, R111. -/
def execStaZeroPage (zp : Byte) (s : State) : Answer :=
  complete (.staZeroPage zp) (opSta (effectiveAddress (.zeroPage zp) s) s)

/-- STA ZeroPageX, 0x95. R143, R112. -/
def execStaZeroPageX (zp : Byte) (s : State) : Answer :=
  complete (.staZeroPageX zp) (opSta (effectiveAddress (.zeroPageX zp) s) s)

/-- STA Absolute, 0x8D. R143, R115. -/
def execStaAbsolute (address : Addr) (s : State) : Answer :=
  complete (.staAbsolute address) (opSta (effectiveAddress (.absolute address) s) s)

/-- STA AbsoluteX, 0x9D. R143, R116. -/
def execStaAbsoluteX (address : Addr) (s : State) : Answer :=
  complete (.staAbsoluteX address) (opSta (effectiveAddress (.absoluteX address) s) s)

/-- STA AbsoluteY, 0x99. R143, R117. -/
def execStaAbsoluteY (address : Addr) (s : State) : Answer :=
  complete (.staAbsoluteY address) (opSta (effectiveAddress (.absoluteY address) s) s)

/-- STA IndexedIndirectX, 0x81. R143, R121. -/
def execStaIndexedIndirectX (zp : Byte) (s : State) : Answer :=
  complete (.staIndexedIndirectX zp) (opSta (effectiveAddress (.indexedIndirectX zp) s) s)

/-- STA IndirectIndexedY, 0x91. R143, R122. -/
def execStaIndirectIndexedY (zp : Byte) (s : State) : Answer :=
  complete (.staIndirectIndexedY zp) (opSta (effectiveAddress (.indirectIndexedY zp) s) s)

/-- STX ZeroPage, 0x86. R144, R111. -/
def execStxZeroPage (zp : Byte) (s : State) : Answer :=
  complete (.stxZeroPage zp) (opStx (effectiveAddress (.zeroPage zp) s) s)

/-- STX ZeroPageY, 0x96. R144, R113. -/
def execStxZeroPageY (zp : Byte) (s : State) : Answer :=
  complete (.stxZeroPageY zp) (opStx (effectiveAddress (.zeroPageY zp) s) s)

/-- STX Absolute, 0x8E. R144, R115. -/
def execStxAbsolute (address : Addr) (s : State) : Answer :=
  complete (.stxAbsolute address) (opStx (effectiveAddress (.absolute address) s) s)

/-- STY ZeroPage, 0x84. R145, R111. -/
def execStyZeroPage (zp : Byte) (s : State) : Answer :=
  complete (.styZeroPage zp) (opSty (effectiveAddress (.zeroPage zp) s) s)

/-- STY ZeroPageX, 0x94. R145, R112. -/
def execStyZeroPageX (zp : Byte) (s : State) : Answer :=
  complete (.styZeroPageX zp) (opSty (effectiveAddress (.zeroPageX zp) s) s)

/-- STY Absolute, 0x8C. R145, R115. -/
def execStyAbsolute (address : Addr) (s : State) : Answer :=
  complete (.styAbsolute address) (opSty (effectiveAddress (.absolute address) s) s)

end Sys2Proof.Machine
end

