-- ==== Sys2Proof/Machine/IncDec.lean ====
section
/-! DEFINITION. Increment and decrement. 45_incdec.md. C and V are not written. -/

namespace Sys2Proof.Machine

/-- Write a byte back to memory and set Z and N from it. -/
def storeAndFlag (address : Addr) (v : Byte) (s : State) : State :=
  (busWrite s address v).setFlags (setZN v s.flags)

/-- `v <- u8(ctx.operand + 1); MemWrite(ctx.address, 1, v); SetZN(v)`. R180. -/
def opInc (address : Addr) (operand : Byte) (s : State) : State := storeAndFlag address (operand + 1) s

/-- `v <- u8(ctx.operand - 1); MemWrite(ctx.address, 1, v); SetZN(v)`. R181. -/
def opDec (address : Addr) (operand : Byte) (s : State) : State := storeAndFlag address (operand - 1) s

/-- `X <- u8(X + 1); SetZN(X)`. R182. -/
def opInx (s : State) : State := loadX (s.x + 1) s

/-- `Y <- u8(Y + 1); SetZN(Y)`. R183. -/
def opIny (s : State) : State := loadY (s.y + 1) s

/-- `X <- u8(X - 1); SetZN(X)`. R184. -/
def opDex (s : State) : State := loadX (s.x - 1) s

/-- `Y <- u8(Y - 1); SetZN(Y)`. R185. -/
def opDey (s : State) : State := loadY (s.y - 1) s

/-! The meaning of each row. -/

/-- INC ZeroPage, 0xE6. R180, R111. -/
def execIncZeroPage (zp : Byte) (s : State) : Answer :=
  complete (.incZeroPage zp) (opInc (effectiveAddress (.zeroPage zp) s) (memoryByte (.zeroPage zp) s) s)

/-- INC ZeroPageX, 0xF6. R180, R112. -/
def execIncZeroPageX (zp : Byte) (s : State) : Answer :=
  complete (.incZeroPageX zp) (opInc (effectiveAddress (.zeroPageX zp) s) (memoryByte (.zeroPageX zp) s) s)

/-- INC Absolute, 0xEE. R180, R115. -/
def execIncAbsolute (address : Addr) (s : State) : Answer :=
  complete (.incAbsolute address) (opInc (effectiveAddress (.absolute address) s) (memoryByte (.absolute address) s) s)

/-- INC AbsoluteX, 0xFE. R180, R116. -/
def execIncAbsoluteX (address : Addr) (s : State) : Answer :=
  complete (.incAbsoluteX address) (opInc (effectiveAddress (.absoluteX address) s) (memoryByte (.absoluteX address) s) s)

/-- DEC ZeroPage, 0xC6. R181, R111. -/
def execDecZeroPage (zp : Byte) (s : State) : Answer :=
  complete (.decZeroPage zp) (opDec (effectiveAddress (.zeroPage zp) s) (memoryByte (.zeroPage zp) s) s)

/-- DEC ZeroPageX, 0xD6. R181, R112. -/
def execDecZeroPageX (zp : Byte) (s : State) : Answer :=
  complete (.decZeroPageX zp) (opDec (effectiveAddress (.zeroPageX zp) s) (memoryByte (.zeroPageX zp) s) s)

/-- DEC Absolute, 0xCE. R181, R115. -/
def execDecAbsolute (address : Addr) (s : State) : Answer :=
  complete (.decAbsolute address) (opDec (effectiveAddress (.absolute address) s) (memoryByte (.absolute address) s) s)

/-- DEC AbsoluteX, 0xDE. R181, R116. -/
def execDecAbsoluteX (address : Addr) (s : State) : Answer :=
  complete (.decAbsoluteX address) (opDec (effectiveAddress (.absoluteX address) s) (memoryByte (.absoluteX address) s) s)

/-- INX Implied, 0xE8. R182, R108. -/
def execInx (s : State) : Answer := complete .inx (opInx s)

/-- INY Implied, 0xC8. R183, R108. -/
def execIny (s : State) : Answer := complete .iny (opIny s)

/-- DEX Implied, 0xCA. R184, R108. -/
def execDex (s : State) : Answer := complete .dex (opDex s)

/-- DEY Implied, 0x88. R185, R108. -/
def execDey (s : State) : Answer := complete .dey (opDey s)

end Sys2Proof.Machine
end

