-- ==== Sys2Proof/Machine/Jump.lean ====
section
/-! DEFINITION. Jump, subroutine call and return. 47_jump_branch.md. These assign PC themselves and the engine adds nothing
(40_step_and_addressing.md R124). The target is used directly, never OR-ed with the load base (90_conflicts.md C7). -/

namespace Sys2Proof.Machine

/-- `PC <- ctx.address`. R200. -/
def opJmp (target : Addr) (s : State) : State := s.setPc target

/-- The return address `u16(PC + 3)`. R201. -/
def returnAddress (s : State) : Addr := s.pc + 3

/-- `Push(ret[15:8]); Push(ret[7:0]); PC <- ctx.address`. R201. -/
def opJsr (target : Addr) (s : State) : State :=
  (push (push s (highByte (returnAddress s))) (lowByte (returnAddress s))).setPc target

/-- `lo <- Pop(); hi <- Pop(); PC <- hi ++ lo`; nothing is added. R202. -/
def opRts (s : State) : State :=
  let lo := popByte s
  let hi := popByte (popped s)
  (popped (popped s)).setPc (hiLo hi lo)

/-! The meaning of each row. -/

/-- JMP Absolute, 0x4C. R200, R115. -/
def execJmpAbsolute (target : Addr) (s : State) : Answer := completeManaged (.jmpAbsolute target) (opJmp target s)

/-- JMP Indirect, 0x6C. R200, R120. -/
def execJmpIndirect (pointer : Addr) (s : State) : Answer :=
  completeManaged (.jmpIndirect pointer) (opJmp (indirectTarget pointer s) s)

/-- JSR Absolute, 0x20. R201, R115. -/
def execJsr (target : Addr) (s : State) : Answer := completeManaged (.jsr target) (opJsr target s)

/-- RTS Implied, 0x60. R202, R108. -/
def execRts (s : State) : Answer := completeManaged .rts (opRts s)

end Sys2Proof.Machine
end

