-- ==== Sys2Proof/Machine/Logical.lean ====
section
/-! DEFINITION. Logical instructions. 43_logical.md. -/

namespace Sys2Proof.Machine

/-- `A <- A & ctx.operand; SetZN(A)`. R165. -/
def opAnd (operand : Byte) (s : State) : State := loadA (s.a &&& operand) s

/-- `A <- A | ctx.operand; SetZN(A)`. R166. -/
def opOra (operand : Byte) (s : State) : State := loadA (s.a ||| operand) s

/-- `A <- A ^ ctx.operand; SetZN(A)`. R167. -/
def opEor (operand : Byte) (s : State) : State := loadA (s.a ^^^ operand) s

/-- `t <- A & ctx.operand; V <- t[6]; SetZN(t)`; no register. R168. -/
def opBit (operand : Byte) (s : State) : State := s.setFlags (bitFlags s.a operand s.flags)

/-! The meaning of each row. -/

/-- AND Immediate, 0x29. R165, R110. -/
def execAndImmediate (value : Byte) (s : State) : Answer := complete (.andImmediate value) (opAnd value s)

/-- AND ZeroPage, 0x25. R165, R111. -/
def execAndZeroPage (zp : Byte) (s : State) : Answer :=
  complete (.andZeroPage zp) (opAnd (memoryByte (.zeroPage zp) s) s)

/-- AND ZeroPageX, 0x35. R165, R112. -/
def execAndZeroPageX (zp : Byte) (s : State) : Answer :=
  complete (.andZeroPageX zp) (opAnd (memoryByte (.zeroPageX zp) s) s)

/-- AND Absolute, 0x2D. R165, R115. -/
def execAndAbsolute (address : Addr) (s : State) : Answer :=
  complete (.andAbsolute address) (opAnd (memoryByte (.absolute address) s) s)

/-- AND AbsoluteX, 0x3D. R165, R116. -/
def execAndAbsoluteX (address : Addr) (s : State) : Answer :=
  complete (.andAbsoluteX address) (opAnd (memoryByte (.absoluteX address) s) s)

/-- AND AbsoluteY, 0x39. R165, R117. -/
def execAndAbsoluteY (address : Addr) (s : State) : Answer :=
  complete (.andAbsoluteY address) (opAnd (memoryByte (.absoluteY address) s) s)

/-- AND IndexedIndirectX, 0x21. R165, R121. -/
def execAndIndexedIndirectX (zp : Byte) (s : State) : Answer :=
  complete (.andIndexedIndirectX zp) (opAnd (memoryByte (.indexedIndirectX zp) s) s)

/-- AND IndirectIndexedY, 0x31. R165, R122. -/
def execAndIndirectIndexedY (zp : Byte) (s : State) : Answer :=
  complete (.andIndirectIndexedY zp) (opAnd (memoryByte (.indirectIndexedY zp) s) s)

/-- ORA Immediate, 0x09. R166, R110. -/
def execOraImmediate (value : Byte) (s : State) : Answer := complete (.oraImmediate value) (opOra value s)

/-- ORA ZeroPage, 0x05. R166, R111. -/
def execOraZeroPage (zp : Byte) (s : State) : Answer :=
  complete (.oraZeroPage zp) (opOra (memoryByte (.zeroPage zp) s) s)

/-- ORA ZeroPageX, 0x15. R166, R112. -/
def execOraZeroPageX (zp : Byte) (s : State) : Answer :=
  complete (.oraZeroPageX zp) (opOra (memoryByte (.zeroPageX zp) s) s)

/-- ORA Absolute, 0x0D. R166, R115. -/
def execOraAbsolute (address : Addr) (s : State) : Answer :=
  complete (.oraAbsolute address) (opOra (memoryByte (.absolute address) s) s)

/-- ORA AbsoluteX, 0x1D. R166, R116. -/
def execOraAbsoluteX (address : Addr) (s : State) : Answer :=
  complete (.oraAbsoluteX address) (opOra (memoryByte (.absoluteX address) s) s)

/-- ORA AbsoluteY, 0x19. R166, R117. -/
def execOraAbsoluteY (address : Addr) (s : State) : Answer :=
  complete (.oraAbsoluteY address) (opOra (memoryByte (.absoluteY address) s) s)

/-- ORA IndexedIndirectX, 0x01. R166, R121. -/
def execOraIndexedIndirectX (zp : Byte) (s : State) : Answer :=
  complete (.oraIndexedIndirectX zp) (opOra (memoryByte (.indexedIndirectX zp) s) s)

/-- ORA IndirectIndexedY, 0x11. R166, R122. -/
def execOraIndirectIndexedY (zp : Byte) (s : State) : Answer :=
  complete (.oraIndirectIndexedY zp) (opOra (memoryByte (.indirectIndexedY zp) s) s)

/-- EOR Immediate, 0x49. R167, R110. -/
def execEorImmediate (value : Byte) (s : State) : Answer := complete (.eorImmediate value) (opEor value s)

/-- EOR ZeroPage, 0x45. R167, R111. -/
def execEorZeroPage (zp : Byte) (s : State) : Answer :=
  complete (.eorZeroPage zp) (opEor (memoryByte (.zeroPage zp) s) s)

/-- EOR ZeroPageX, 0x55. R167, R112. -/
def execEorZeroPageX (zp : Byte) (s : State) : Answer :=
  complete (.eorZeroPageX zp) (opEor (memoryByte (.zeroPageX zp) s) s)

/-- EOR Absolute, 0x4D. R167, R115. -/
def execEorAbsolute (address : Addr) (s : State) : Answer :=
  complete (.eorAbsolute address) (opEor (memoryByte (.absolute address) s) s)

/-- EOR AbsoluteX, 0x5D. R167, R116. -/
def execEorAbsoluteX (address : Addr) (s : State) : Answer :=
  complete (.eorAbsoluteX address) (opEor (memoryByte (.absoluteX address) s) s)

/-- EOR AbsoluteY, 0x59. R167, R117. -/
def execEorAbsoluteY (address : Addr) (s : State) : Answer :=
  complete (.eorAbsoluteY address) (opEor (memoryByte (.absoluteY address) s) s)

/-- EOR IndexedIndirectX, 0x41. R167, R121. -/
def execEorIndexedIndirectX (zp : Byte) (s : State) : Answer :=
  complete (.eorIndexedIndirectX zp) (opEor (memoryByte (.indexedIndirectX zp) s) s)

/-- EOR IndirectIndexedY, 0x51. R167, R122. -/
def execEorIndirectIndexedY (zp : Byte) (s : State) : Answer :=
  complete (.eorIndirectIndexedY zp) (opEor (memoryByte (.indirectIndexedY zp) s) s)

/-- BIT ZeroPage, 0x24. R168, R111. -/
def execBitZeroPage (zp : Byte) (s : State) : Answer :=
  complete (.bitZeroPage zp) (opBit (memoryByte (.zeroPage zp) s) s)

/-- BIT Absolute, 0x2C. R168, R115. -/
def execBitAbsolute (address : Addr) (s : State) : Answer :=
  complete (.bitAbsolute address) (opBit (memoryByte (.absolute address) s) s)

end Sys2Proof.Machine
end

