-- ==== Sys2Proof/Machine/Shift.lean ====
section
/-! DEFINITION. Shifts and rotates, the deferred forms this spec decides. 46_shift_rotate.md R190 to R194, decision D8. Each has an
Accumulator form and memory forms; both take the result and the bit out from the same computation (Machine/Flags.lean). -/

namespace Sys2Proof.Machine

/-- The Accumulator form: the result to A. R190. -/
def shiftedToA (r : Shifted) (s : State) : State := (s.setA r.result).setFlags (shiftFlags r s.flags)

/-- A memory form: the result back to the address the byte came from. R190. -/
def shiftedToMemory (address : Addr) (r : Shifted) (s : State) : State :=
  (busWrite s address r.result).setFlags (shiftFlags r s.flags)

/-- ASL on A. R191. -/
def opAslAccumulator (s : State) : State := shiftedToA (shiftLeft s.a) s

/-- ASL on memory. R191. -/
def opAsl (address : Addr) (operand : Byte) (s : State) : State := shiftedToMemory address (shiftLeft operand) s

/-- LSR on A. R192. -/
def opLsrAccumulator (s : State) : State := shiftedToA (shiftRight s.a) s

/-- LSR on memory. R192. -/
def opLsr (address : Addr) (operand : Byte) (s : State) : State := shiftedToMemory address (shiftRight operand) s

/-- ROL on A, with the old carry. R193. -/
def opRolAccumulator (s : State) : State := shiftedToA (rotateLeft s.a s.flags.c) s

/-- ROL on memory, with the old carry. R193. -/
def opRol (address : Addr) (operand : Byte) (s : State) : State :=
  shiftedToMemory address (rotateLeft operand s.flags.c) s

/-- ROR on A, with the old carry. R194. -/
def opRorAccumulator (s : State) : State := shiftedToA (rotateRight s.a s.flags.c) s

/-- ROR on memory, with the old carry. R194. -/
def opRor (address : Addr) (operand : Byte) (s : State) : State :=
  shiftedToMemory address (rotateRight operand s.flags.c) s

/-! The meaning of each row. -/

/-- ASL Accumulator, 0x0A. R191, R109. -/
def execAslAccumulator (s : State) : Answer := complete .aslAccumulator (opAslAccumulator s)

/-- ASL ZeroPage, 0x06. R191, R111. -/
def execAslZeroPage (zp : Byte) (s : State) : Answer :=
  complete (.aslZeroPage zp) (opAsl (effectiveAddress (.zeroPage zp) s) (memoryByte (.zeroPage zp) s) s)

/-- ASL ZeroPageX, 0x16. R191, R112. -/
def execAslZeroPageX (zp : Byte) (s : State) : Answer :=
  complete (.aslZeroPageX zp) (opAsl (effectiveAddress (.zeroPageX zp) s) (memoryByte (.zeroPageX zp) s) s)

/-- ASL Absolute, 0x0E. R191, R115. -/
def execAslAbsolute (address : Addr) (s : State) : Answer :=
  complete (.aslAbsolute address) (opAsl (effectiveAddress (.absolute address) s) (memoryByte (.absolute address) s) s)

/-- ASL AbsoluteX, 0x1E. R191, R116. -/
def execAslAbsoluteX (address : Addr) (s : State) : Answer :=
  complete (.aslAbsoluteX address) (opAsl (effectiveAddress (.absoluteX address) s) (memoryByte (.absoluteX address) s) s)

/-- LSR Accumulator, 0x4A. R192, R109. -/
def execLsrAccumulator (s : State) : Answer := complete .lsrAccumulator (opLsrAccumulator s)

/-- LSR ZeroPage, 0x46. R192, R111. -/
def execLsrZeroPage (zp : Byte) (s : State) : Answer :=
  complete (.lsrZeroPage zp) (opLsr (effectiveAddress (.zeroPage zp) s) (memoryByte (.zeroPage zp) s) s)

/-- LSR ZeroPageX, 0x56. R192, R112. -/
def execLsrZeroPageX (zp : Byte) (s : State) : Answer :=
  complete (.lsrZeroPageX zp) (opLsr (effectiveAddress (.zeroPageX zp) s) (memoryByte (.zeroPageX zp) s) s)

/-- LSR Absolute, 0x4E. R192, R115. -/
def execLsrAbsolute (address : Addr) (s : State) : Answer :=
  complete (.lsrAbsolute address) (opLsr (effectiveAddress (.absolute address) s) (memoryByte (.absolute address) s) s)

/-- LSR AbsoluteX, 0x5E. R192, R116. -/
def execLsrAbsoluteX (address : Addr) (s : State) : Answer :=
  complete (.lsrAbsoluteX address) (opLsr (effectiveAddress (.absoluteX address) s) (memoryByte (.absoluteX address) s) s)

/-- ROL Accumulator, 0x2A. R193, R109. -/
def execRolAccumulator (s : State) : Answer := complete .rolAccumulator (opRolAccumulator s)

/-- ROL ZeroPage, 0x26. R193, R111. -/
def execRolZeroPage (zp : Byte) (s : State) : Answer :=
  complete (.rolZeroPage zp) (opRol (effectiveAddress (.zeroPage zp) s) (memoryByte (.zeroPage zp) s) s)

/-- ROL ZeroPageX, 0x36. R193, R112. -/
def execRolZeroPageX (zp : Byte) (s : State) : Answer :=
  complete (.rolZeroPageX zp) (opRol (effectiveAddress (.zeroPageX zp) s) (memoryByte (.zeroPageX zp) s) s)

/-- ROL Absolute, 0x2E. R193, R115. -/
def execRolAbsolute (address : Addr) (s : State) : Answer :=
  complete (.rolAbsolute address) (opRol (effectiveAddress (.absolute address) s) (memoryByte (.absolute address) s) s)

/-- ROL AbsoluteX, 0x3E. R193, R116. -/
def execRolAbsoluteX (address : Addr) (s : State) : Answer :=
  complete (.rolAbsoluteX address) (opRol (effectiveAddress (.absoluteX address) s) (memoryByte (.absoluteX address) s) s)

/-- ROR Accumulator, 0x6A. R194, R109. -/
def execRorAccumulator (s : State) : Answer := complete .rorAccumulator (opRorAccumulator s)

/-- ROR ZeroPage, 0x66. R194, R111. -/
def execRorZeroPage (zp : Byte) (s : State) : Answer :=
  complete (.rorZeroPage zp) (opRor (effectiveAddress (.zeroPage zp) s) (memoryByte (.zeroPage zp) s) s)

/-- ROR ZeroPageX, 0x76. R194, R112. -/
def execRorZeroPageX (zp : Byte) (s : State) : Answer :=
  complete (.rorZeroPageX zp) (opRor (effectiveAddress (.zeroPageX zp) s) (memoryByte (.zeroPageX zp) s) s)

/-- ROR Absolute, 0x6E. R194, R115. -/
def execRorAbsolute (address : Addr) (s : State) : Answer :=
  complete (.rorAbsolute address) (opRor (effectiveAddress (.absolute address) s) (memoryByte (.absolute address) s) s)

/-- ROR AbsoluteX, 0x7E. R194, R116. -/
def execRorAbsoluteX (address : Addr) (s : State) : Answer :=
  complete (.rorAbsoluteX address) (opRor (effectiveAddress (.absoluteX address) s) (memoryByte (.absoluteX address) s) s)

end Sys2Proof.Machine
end

