-- ==== Sys2Proof/Machine/System.lean ====
section
/-! DEFINITION. The rejected opcodes: BRK, RTI and the 105 Illegal bytes. 48_flag_nop_system.md R228 to R230. Each takes the one
exception, in step 1, before any operand byte is read (60_exceptions.md R240, R246). -/

namespace Sys2Proof.Machine

/-- BRK Implied, 0x00. R228, R108. -/
def execBrk (s : State) : Answer := raiseInvalidInstruction s

/-- RTI Implied, 0x40. R229, R108. -/
def execRti (s : State) : Answer := raiseInvalidInstruction s

/-- ILL, one of the 105 Illegal bytes: all behave alike, so the byte is not looked at. R230, 30_encoding.md R92. -/
def execIll (_opcode : Byte) (s : State) : Answer := raiseInvalidInstruction s

end Sys2Proof.Machine
end

