-- ==== Sys2Proof/Machine/TransferStack.lean ====
section
/-! DEFINITION. Register transfers and stack instructions. 42_transfer_stack.md. -/

namespace Sys2Proof.Machine

/-- `X <- A; SetZN(X)`. R152. -/
def opTax (s : State) : State := loadX s.a s

/-- `Y <- A; SetZN(Y)`. R153. -/
def opTay (s : State) : State := loadY s.a s

/-- `A <- X; SetZN(A)`. R154. -/
def opTxa (s : State) : State := loadA s.x s

/-- `A <- Y; SetZN(A)`. R155. -/
def opTya (s : State) : State := loadA s.y s

/-- `X <- SP; SetZN(X)`. R156. -/
def opTsx (s : State) : State := loadX s.sp s

/-- `SP <- X; SetZN(SP)`: on this hardware TXS sets Z and N. R157, decision D12. -/
def opTxs (s : State) : State := (s.setSp s.x).setFlags (setZN s.x s.flags)

/-- `Push(A)`; no flag. R158. -/
def opPha (s : State) : State := push s s.a

/-- `Push(Pack())`: no bit is forced; no flag. R159, decision D14. -/
def opPhp (s : State) : State := push s (pack s.flags)

/-- `A <- Pop(); SetZN(A)`. R160, decision D13. -/
def opPla (s : State) : State := loadA (popByte s) (popped s)

/-- `Unpack(Pop())`: all eight flags. R161, decision D14. -/
def opPlp (s : State) : State := (popped s).setFlags (unpack (popByte s))

/-! The meaning of each row. -/

/-- TAX Implied, 0xAA. R152, R108. -/
def execTax (s : State) : Answer := complete .tax (opTax s)

/-- TAY Implied, 0xA8. R153, R108. -/
def execTay (s : State) : Answer := complete .tay (opTay s)

/-- TXA Implied, 0x8A. R154, R108. -/
def execTxa (s : State) : Answer := complete .txa (opTxa s)

/-- TYA Implied, 0x98. R155, R108. -/
def execTya (s : State) : Answer := complete .tya (opTya s)

/-- TSX Implied, 0xBA. R156, R108. -/
def execTsx (s : State) : Answer := complete .tsx (opTsx s)

/-- TXS Implied, 0x9A. R157, R108. -/
def execTxs (s : State) : Answer := complete .txs (opTxs s)

/-- PHA Implied, 0x48. R158, R108. -/
def execPha (s : State) : Answer := complete .pha (opPha s)

/-- PHP Implied, 0x08. R159, R108. -/
def execPhp (s : State) : Answer := complete .php (opPhp s)

/-- PLA Implied, 0x68. R160, R108. -/
def execPla (s : State) : Answer := complete .pla (opPla s)

/-- PLP Implied, 0x28. R161, R108. -/
def execPlp (s : State) : Answer := complete .plp (opPlp s)

end Sys2Proof.Machine
end

