-- ==== Sys2Proof/Machine/Dispatch.lean ====
section
/-! DEFINITION. The meaning of every instruction: one arm for each constructor of Instr, one direct call of its meaning.
40_step_and_addressing.md R101, steps 2 to 5, and the rejection of step 1 for BRK, RTI and ILL. -/

namespace Sys2Proof.Machine

def exec (i : Instr) (s : State) : Host.Outcome State Fault Refusal :=
  match i with
  -- LoadStore
  | .ldaImmediate value => Sys2Proof.Machine.execLdaImmediate value s
  | .ldaZeroPage zp => Sys2Proof.Machine.execLdaZeroPage zp s
  | .ldaZeroPageX zp => Sys2Proof.Machine.execLdaZeroPageX zp s
  | .ldaAbsolute address => Sys2Proof.Machine.execLdaAbsolute address s
  | .ldaAbsoluteX address => Sys2Proof.Machine.execLdaAbsoluteX address s
  | .ldaAbsoluteY address => Sys2Proof.Machine.execLdaAbsoluteY address s
  | .ldaIndexedIndirectX zp => Sys2Proof.Machine.execLdaIndexedIndirectX zp s
  | .ldaIndirectIndexedY zp => Sys2Proof.Machine.execLdaIndirectIndexedY zp s
  | .ldxImmediate value => Sys2Proof.Machine.execLdxImmediate value s
  | .ldxZeroPage zp => Sys2Proof.Machine.execLdxZeroPage zp s
  | .ldxZeroPageY zp => Sys2Proof.Machine.execLdxZeroPageY zp s
  | .ldxAbsolute address => Sys2Proof.Machine.execLdxAbsolute address s
  | .ldxAbsoluteY address => Sys2Proof.Machine.execLdxAbsoluteY address s
  | .ldyImmediate value => Sys2Proof.Machine.execLdyImmediate value s
  | .ldyZeroPage zp => Sys2Proof.Machine.execLdyZeroPage zp s
  | .ldyZeroPageX zp => Sys2Proof.Machine.execLdyZeroPageX zp s
  | .ldyAbsolute address => Sys2Proof.Machine.execLdyAbsolute address s
  | .ldyAbsoluteX address => Sys2Proof.Machine.execLdyAbsoluteX address s
  | .staZeroPage zp => Sys2Proof.Machine.execStaZeroPage zp s
  | .staZeroPageX zp => Sys2Proof.Machine.execStaZeroPageX zp s
  | .staAbsolute address => Sys2Proof.Machine.execStaAbsolute address s
  | .staAbsoluteX address => Sys2Proof.Machine.execStaAbsoluteX address s
  | .staAbsoluteY address => Sys2Proof.Machine.execStaAbsoluteY address s
  | .staIndexedIndirectX zp => Sys2Proof.Machine.execStaIndexedIndirectX zp s
  | .staIndirectIndexedY zp => Sys2Proof.Machine.execStaIndirectIndexedY zp s
  | .stxZeroPage zp => Sys2Proof.Machine.execStxZeroPage zp s
  | .stxZeroPageY zp => Sys2Proof.Machine.execStxZeroPageY zp s
  | .stxAbsolute address => Sys2Proof.Machine.execStxAbsolute address s
  | .styZeroPage zp => Sys2Proof.Machine.execStyZeroPage zp s
  | .styZeroPageX zp => Sys2Proof.Machine.execStyZeroPageX zp s
  | .styAbsolute address => Sys2Proof.Machine.execStyAbsolute address s
  -- TransferStack
  | .tax => Sys2Proof.Machine.execTax s
  | .tay => Sys2Proof.Machine.execTay s
  | .txa => Sys2Proof.Machine.execTxa s
  | .tya => Sys2Proof.Machine.execTya s
  | .tsx => Sys2Proof.Machine.execTsx s
  | .txs => Sys2Proof.Machine.execTxs s
  | .pha => Sys2Proof.Machine.execPha s
  | .php => Sys2Proof.Machine.execPhp s
  | .pla => Sys2Proof.Machine.execPla s
  | .plp => Sys2Proof.Machine.execPlp s
  -- Logical
  | .andImmediate value => Sys2Proof.Machine.execAndImmediate value s
  | .andZeroPage zp => Sys2Proof.Machine.execAndZeroPage zp s
  | .andZeroPageX zp => Sys2Proof.Machine.execAndZeroPageX zp s
  | .andAbsolute address => Sys2Proof.Machine.execAndAbsolute address s
  | .andAbsoluteX address => Sys2Proof.Machine.execAndAbsoluteX address s
  | .andAbsoluteY address => Sys2Proof.Machine.execAndAbsoluteY address s
  | .andIndexedIndirectX zp => Sys2Proof.Machine.execAndIndexedIndirectX zp s
  | .andIndirectIndexedY zp => Sys2Proof.Machine.execAndIndirectIndexedY zp s
  | .oraImmediate value => Sys2Proof.Machine.execOraImmediate value s
  | .oraZeroPage zp => Sys2Proof.Machine.execOraZeroPage zp s
  | .oraZeroPageX zp => Sys2Proof.Machine.execOraZeroPageX zp s
  | .oraAbsolute address => Sys2Proof.Machine.execOraAbsolute address s
  | .oraAbsoluteX address => Sys2Proof.Machine.execOraAbsoluteX address s
  | .oraAbsoluteY address => Sys2Proof.Machine.execOraAbsoluteY address s
  | .oraIndexedIndirectX zp => Sys2Proof.Machine.execOraIndexedIndirectX zp s
  | .oraIndirectIndexedY zp => Sys2Proof.Machine.execOraIndirectIndexedY zp s
  | .eorImmediate value => Sys2Proof.Machine.execEorImmediate value s
  | .eorZeroPage zp => Sys2Proof.Machine.execEorZeroPage zp s
  | .eorZeroPageX zp => Sys2Proof.Machine.execEorZeroPageX zp s
  | .eorAbsolute address => Sys2Proof.Machine.execEorAbsolute address s
  | .eorAbsoluteX address => Sys2Proof.Machine.execEorAbsoluteX address s
  | .eorAbsoluteY address => Sys2Proof.Machine.execEorAbsoluteY address s
  | .eorIndexedIndirectX zp => Sys2Proof.Machine.execEorIndexedIndirectX zp s
  | .eorIndirectIndexedY zp => Sys2Proof.Machine.execEorIndirectIndexedY zp s
  | .bitZeroPage zp => Sys2Proof.Machine.execBitZeroPage zp s
  | .bitAbsolute address => Sys2Proof.Machine.execBitAbsolute address s
  -- Arithmetic
  | .adcImmediate value => Sys2Proof.Machine.execAdcImmediate value s
  | .adcZeroPage zp => Sys2Proof.Machine.execAdcZeroPage zp s
  | .adcZeroPageX zp => Sys2Proof.Machine.execAdcZeroPageX zp s
  | .adcAbsolute address => Sys2Proof.Machine.execAdcAbsolute address s
  | .adcAbsoluteX address => Sys2Proof.Machine.execAdcAbsoluteX address s
  | .adcAbsoluteY address => Sys2Proof.Machine.execAdcAbsoluteY address s
  | .adcIndexedIndirectX zp => Sys2Proof.Machine.execAdcIndexedIndirectX zp s
  | .adcIndirectIndexedY zp => Sys2Proof.Machine.execAdcIndirectIndexedY zp s
  | .sbcImmediate value => Sys2Proof.Machine.execSbcImmediate value s
  | .sbcZeroPage zp => Sys2Proof.Machine.execSbcZeroPage zp s
  | .sbcZeroPageX zp => Sys2Proof.Machine.execSbcZeroPageX zp s
  | .sbcAbsolute address => Sys2Proof.Machine.execSbcAbsolute address s
  | .sbcAbsoluteX address => Sys2Proof.Machine.execSbcAbsoluteX address s
  | .sbcAbsoluteY address => Sys2Proof.Machine.execSbcAbsoluteY address s
  | .sbcIndexedIndirectX zp => Sys2Proof.Machine.execSbcIndexedIndirectX zp s
  | .sbcIndirectIndexedY zp => Sys2Proof.Machine.execSbcIndirectIndexedY zp s
  | .cmpImmediate value => Sys2Proof.Machine.execCmpImmediate value s
  | .cmpZeroPage zp => Sys2Proof.Machine.execCmpZeroPage zp s
  | .cmpZeroPageX zp => Sys2Proof.Machine.execCmpZeroPageX zp s
  | .cmpAbsolute address => Sys2Proof.Machine.execCmpAbsolute address s
  | .cmpAbsoluteX address => Sys2Proof.Machine.execCmpAbsoluteX address s
  | .cmpAbsoluteY address => Sys2Proof.Machine.execCmpAbsoluteY address s
  | .cmpIndexedIndirectX zp => Sys2Proof.Machine.execCmpIndexedIndirectX zp s
  | .cmpIndirectIndexedY zp => Sys2Proof.Machine.execCmpIndirectIndexedY zp s
  | .cpxImmediate value => Sys2Proof.Machine.execCpxImmediate value s
  | .cpxZeroPage zp => Sys2Proof.Machine.execCpxZeroPage zp s
  | .cpxAbsolute address => Sys2Proof.Machine.execCpxAbsolute address s
  | .cpyImmediate value => Sys2Proof.Machine.execCpyImmediate value s
  | .cpyZeroPage zp => Sys2Proof.Machine.execCpyZeroPage zp s
  | .cpyAbsolute address => Sys2Proof.Machine.execCpyAbsolute address s
  -- IncDec
  | .incZeroPage zp => Sys2Proof.Machine.execIncZeroPage zp s
  | .incZeroPageX zp => Sys2Proof.Machine.execIncZeroPageX zp s
  | .incAbsolute address => Sys2Proof.Machine.execIncAbsolute address s
  | .incAbsoluteX address => Sys2Proof.Machine.execIncAbsoluteX address s
  | .decZeroPage zp => Sys2Proof.Machine.execDecZeroPage zp s
  | .decZeroPageX zp => Sys2Proof.Machine.execDecZeroPageX zp s
  | .decAbsolute address => Sys2Proof.Machine.execDecAbsolute address s
  | .decAbsoluteX address => Sys2Proof.Machine.execDecAbsoluteX address s
  | .inx => Sys2Proof.Machine.execInx s
  | .iny => Sys2Proof.Machine.execIny s
  | .dex => Sys2Proof.Machine.execDex s
  | .dey => Sys2Proof.Machine.execDey s
  -- Shift
  | .aslAccumulator => Sys2Proof.Machine.execAslAccumulator s
  | .aslZeroPage zp => Sys2Proof.Machine.execAslZeroPage zp s
  | .aslZeroPageX zp => Sys2Proof.Machine.execAslZeroPageX zp s
  | .aslAbsolute address => Sys2Proof.Machine.execAslAbsolute address s
  | .aslAbsoluteX address => Sys2Proof.Machine.execAslAbsoluteX address s
  | .lsrAccumulator => Sys2Proof.Machine.execLsrAccumulator s
  | .lsrZeroPage zp => Sys2Proof.Machine.execLsrZeroPage zp s
  | .lsrZeroPageX zp => Sys2Proof.Machine.execLsrZeroPageX zp s
  | .lsrAbsolute address => Sys2Proof.Machine.execLsrAbsolute address s
  | .lsrAbsoluteX address => Sys2Proof.Machine.execLsrAbsoluteX address s
  | .rolAccumulator => Sys2Proof.Machine.execRolAccumulator s
  | .rolZeroPage zp => Sys2Proof.Machine.execRolZeroPage zp s
  | .rolZeroPageX zp => Sys2Proof.Machine.execRolZeroPageX zp s
  | .rolAbsolute address => Sys2Proof.Machine.execRolAbsolute address s
  | .rolAbsoluteX address => Sys2Proof.Machine.execRolAbsoluteX address s
  | .rorAccumulator => Sys2Proof.Machine.execRorAccumulator s
  | .rorZeroPage zp => Sys2Proof.Machine.execRorZeroPage zp s
  | .rorZeroPageX zp => Sys2Proof.Machine.execRorZeroPageX zp s
  | .rorAbsolute address => Sys2Proof.Machine.execRorAbsolute address s
  | .rorAbsoluteX address => Sys2Proof.Machine.execRorAbsoluteX address s
  -- Jump
  | .jmpAbsolute target => Sys2Proof.Machine.execJmpAbsolute target s
  | .jmpIndirect pointer => Sys2Proof.Machine.execJmpIndirect pointer s
  | .jsr target => Sys2Proof.Machine.execJsr target s
  | .rts => Sys2Proof.Machine.execRts s
  -- Branch
  | .bcc offset => Sys2Proof.Machine.execBcc offset s
  | .bcs offset => Sys2Proof.Machine.execBcs offset s
  | .beq offset => Sys2Proof.Machine.execBeq offset s
  | .bne offset => Sys2Proof.Machine.execBne offset s
  | .bmi offset => Sys2Proof.Machine.execBmi offset s
  | .bpl offset => Sys2Proof.Machine.execBpl offset s
  | .bvc offset => Sys2Proof.Machine.execBvc offset s
  | .bvs offset => Sys2Proof.Machine.execBvs offset s
  -- FlagNop
  | .clc => Sys2Proof.Machine.execClc s
  | .sec => Sys2Proof.Machine.execSec s
  | .cli => Sys2Proof.Machine.execCli s
  | .sei => Sys2Proof.Machine.execSei s
  | .cld => Sys2Proof.Machine.execCld s
  | .sed => Sys2Proof.Machine.execSed s
  | .clv => Sys2Proof.Machine.execClv s
  | .nop => Sys2Proof.Machine.execNop s
  -- System
  | .brk => Sys2Proof.Machine.execBrk s
  | .rti => Sys2Proof.Machine.execRti s
  | .ill opcode => Sys2Proof.Machine.execIll opcode s

end Sys2Proof.Machine
end

