-- ==== Sys2Proof/Machine/Step.lean ====
section
/-! DEFINITION. One step, and how a word of the opcode table is placed where the next step fetches. -/

namespace Sys2Proof.Machine

/-- One step: fetch the instruction at PC and run it. Its `exec` rejects it, or resolves, handles, advances PC and
returns the opcode. 40_step_and_addressing.md R100, R101. -/
def step (s : State) : Host.Outcome State Fault Refusal := exec (fetchInstr s) s

/-- Store a list of bytes at consecutive addresses from `address` up, modulo 65536, in ascending order. -/
def storeBytes (s : State) (address : Addr) (bytes : List Byte) : State :=
  match bytes with
  | [] => s
  | b :: rest => storeBytes (busWrite s address b) (address + 1) rest

/-- `s` with the instruction whose bits are `w` stored at PC, its first byte at PC, the bits above `nbits` 0. A program
comes to run by being stored in memory from outside (`load`, 70_reset_and_hazards.md R266): log entry 6. -/
def State.withFetchWord (s : State) (nbits w : Nat) : State := storeBytes s s.pc (wordBytes nbits w)

end Sys2Proof.Machine
end

