-- ==== Sys2Proof/Machine/Bus.lean ====
section
/-! DEFINITION. The bus accesses of one step, in order: the core's side of the bus contract. Under flat RAM they are
invisible (20_memory.md R52, R60), so they are a function of the state, not state. 20_memory.md R59, R60, R62; the order
among the resolver's accesses is the spec's own decision D17 (log entry 8). -/

namespace Sys2Proof.Machine

/-- One access of one byte. 20_memory.md R50, R59. -/
inductive BusAccess where
  | read (address : Addr)
  | write (address : Addr) (v : Byte)
  deriving DecidableEq, Repr

/-- Items 2 and 3: the operand bytes of an instruction of this length. R62, 40_step_and_addressing.md R104. -/
def operandByteReads (length : Nat) (s : State) : List BusAccess :=
  if length = 3 then [.read (s.pc + 1), .read (s.pc + 2)]
  else if length = 2 then [.read (s.pc + 1)]
  else []

/-- Item 4: the pointer reads of an indirect mode, low byte first. R62, 40_step_and_addressing.md R120 to R122. -/
def pointerReads (o : Operand) (s : State) : List BusAccess :=
  match o with
  | .indirect pointer => [.read pointer, .read (pointer + 1)]
  | .memory (.indexedIndirectX zp) => [.read (zext16 (zp + s.x)), .read (zext16 (zp + s.x + 1))]
  | .memory (.indirectIndexedY zp) => [.read (zext16 zp), .read (zext16 (zp + 1))]
  | .memory (.zeroPage _) | .memory (.zeroPageX _) | .memory (.zeroPageY _)
  | .memory (.absolute _) | .memory (.absoluteX _) | .memory (.absoluteY _)
  | .implied | .accumulator | .illegal | .immediate _ | .relative _ => []

/-- Item 5: the operand read of every memory mode. R60, R62. -/
def operandRead (o : Operand) (s : State) : List BusAccess :=
  match o with
  | .memory m => [.read (effectiveAddress m s)]
  | .implied | .accumulator | .illegal | .immediate _ | .relative _ | .indirect _ => []

/-- The byte a store or a read-modify-write handler writes back, given the operand byte read before. 41_load_store.md
R143 to R145, 45_incdec.md R180, R181, 46_shift_rotate.md R191 to R194. -/
def storedByte (m : Mnemonic) (operand : Option Byte) (s : State) : Option Byte :=
  match m with
  | .sta => some s.a
  | .stx => some s.x
  | .sty => some s.y
  | .inc => operand.map fun v => v + 1
  | .dec => operand.map fun v => v - 1
  | .asl => operand.map fun v => (shiftLeft v).result
  | .lsr => operand.map fun v => (shiftRight v).result
  | .rol => operand.map fun v => (rotateLeft v s.flags.c).result
  | .ror => operand.map fun v => (rotateRight v s.flags.c).result
  | .lda | .ldx | .ldy | .tax | .tay | .txa | .tya | .tsx | .txs | .pha | .php | .pla | .plp | .and | .ora | .eor | .bit
  | .adc | .sbc | .cmp | .cpx | .cpy | .inx | .iny | .dex | .dey | .jmp | .jsr | .rts
  | .bcc | .bcs | .beq | .bne | .bmi | .bpl | .bvc | .bvs
  | .clc | .sec | .cli | .sei | .cld | .sed | .clv | .nop | .brk | .rti | .ill => none

/-- The one write of a store or a read-modify-write handler; none in Accumulator mode. R59. -/
def writeBack (i : Instr) (s : State) : List BusAccess :=
  match (resolve i.operand s).address, storedByte i.mnemonic (resolve i.operand s).operand s with
  | some address, some v => [.write address v]
  | _, _ => []

/-- Item 6: the handler's own accesses. R59, R62. -/
def handlerAccesses (i : Instr) (s : State) : List BusAccess :=
  match i.mnemonic with
  | .sta | .stx | .sty | .inc | .dec | .asl | .lsr | .rol | .ror => writeBack i s
  | .pha => [.write (stackAddress s.sp) s.a]
  | .php => [.write (stackAddress s.sp) (pack s.flags)]
  | .pla | .plp => [.read (stackAddress (s.sp + 1))]
  | .jsr => [.write (stackAddress s.sp) (highByte (returnAddress s)),
             .write (stackAddress (s.sp - 1)) (lowByte (returnAddress s))]
  | .rts => [.read (stackAddress (s.sp + 1)), .read (stackAddress (s.sp + 1 + 1))]
  | .lda | .ldx | .ldy | .tax | .tay | .txa | .tya | .tsx | .txs | .and | .ora | .eor | .bit | .adc | .sbc
  | .cmp | .cpx | .cpy | .inx | .iny | .dex | .dey | .jmp | .bcc | .bcs | .beq | .bne | .bmi | .bpl | .bvc | .bvs
  | .clc | .sec | .cli | .sei | .cld | .sed | .clv | .nop | .brk | .rti | .ill => []

/-- The accesses of the step from `s`, in order. A rejected step makes one. R62, 60_exceptions.md R241. -/
def stepAccesses (s : State) : List BusAccess :=
  let i := fetchInstr s
  .read s.pc ::
    if i.mnemonic.rejected then []
    else operandByteReads i.length s ++ pointerReads i.operand s ++ operandRead i.operand s ++ handlerAccesses i s

/-- A memory after the writes among these accesses, in order. 20_memory.md R69. -/
def applyWrites (accesses : List BusAccess) (m : Memory) : Memory :=
  match accesses with
  | [] => m
  | .read _ :: rest => applyWrites rest m
  | .write address v :: rest => applyWrites rest (m.write address.toNat v)

end Sys2Proof.Machine
end

