-- ==== Sys2Proof/Machine/Engine.lean ====
section
/-! DEFINITION. The step as the spec writes it: 40_step_and_addressing.md R101's pseudocode over the opcode table, the
Instruction Context and one handler for each mnemonic. A second reading of the machine, beside `exec`, which has one arm for each
row; that the two agree is a statement (Obligations.StepIsTheTableDrivenEngine). A handler answers `none` if it would read
a context field its mode leaves without a value (R127). -/

namespace Sys2Proof.Machine

/-- The operand of a mode from the bytes at PC + 1 and PC + 2. 30_encoding.md R82, R85 to R88. -/
def operandOf (mode : Mode) (b1 b2 : Byte) : Operand :=
  match mode with
  | .implied => .implied
  | .accumulator => .accumulator
  | .illegal => .illegal
  | .immediate => .immediate b1
  | .relative => .relative b1
  | .indirect => .indirect (hiLo b2 b1)
  | .zeroPage => .memory (.zeroPage b1)
  | .zeroPageX => .memory (.zeroPageX b1)
  | .zeroPageY => .memory (.zeroPageY b1)
  | .absolute => .memory (.absolute (hiLo b2 b1))
  | .absoluteX => .memory (.absoluteX (hiLo b2 b1))
  | .absoluteY => .memory (.absoluteY (hiLo b2 b1))
  | .indexedIndirectX => .memory (.indexedIndirectX b1)
  | .indirectIndexedY => .memory (.indirectIndexedY b1)

/-- `Resolve(mode)`. R101 step 2, R104 to R122. -/
def resolveMode (mode : Mode) (s : State) : Context :=
  resolve (operandOf mode (busRead s (s.pc + 1)) (busRead s (s.pc + 2))) s

/-- A handler that reads `ctx.operand`. R129. -/
def withOperand (ctx : Context) (op : Byte → State → State) (s : State) : Option State :=
  match ctx.operand with
  | some v => some (op v s)
  | none => none

/-- A handler that uses `ctx.address`. R129. -/
def withAddress (ctx : Context) (op : Addr → State → State) (s : State) : Option State :=
  match ctx.address with
  | some address => some (op address s)
  | none => none

/-- A read-modify-write handler: the address and the byte already read from it. R129. -/
def withBoth (ctx : Context) (op : Addr → Byte → State → State) (s : State) : Option State :=
  match ctx.address, ctx.operand with
  | some address, some v => some (op address v s)
  | _, _ => none

/-- A handler that uses `ctx.offset`. R129. -/
def withOffset (ctx : Context) (op : Byte → State → State) (s : State) : Option State :=
  match ctx.offset with
  | some offset => some (op offset s)
  | none => none

/-- A shift or rotate: on A in Accumulator mode, else on memory. 46_shift_rotate.md R190. -/
def shiftHandler (mode : Mode) (ctx : Context) (onA : State → State) (onMemory : Addr → Byte → State → State)
    (s : State) : Option State :=
  if mode = .accumulator then some (onA s) else withBoth ctx onMemory s

/-- `Handler(e.operation)(ctx)`. R101 step 3, R106. The rejected mnemonics have none: step 1 ends their step. -/
def handler (mnemonic : Mnemonic) (mode : Mode) (ctx : Context) (s : State) : Option State :=
  match mnemonic with
  | .lda => withOperand ctx opLda s
  | .ldx => withOperand ctx opLdx s
  | .ldy => withOperand ctx opLdy s
  | .sta => withAddress ctx opSta s
  | .stx => withAddress ctx opStx s
  | .sty => withAddress ctx opSty s
  | .tax => some (opTax s)
  | .tay => some (opTay s)
  | .txa => some (opTxa s)
  | .tya => some (opTya s)
  | .tsx => some (opTsx s)
  | .txs => some (opTxs s)
  | .pha => some (opPha s)
  | .php => some (opPhp s)
  | .pla => some (opPla s)
  | .plp => some (opPlp s)
  | .and => withOperand ctx opAnd s
  | .ora => withOperand ctx opOra s
  | .eor => withOperand ctx opEor s
  | .bit => withOperand ctx opBit s
  | .adc => withOperand ctx opAdc s
  | .sbc => withOperand ctx opSbc s
  | .cmp => withOperand ctx opCmp s
  | .cpx => withOperand ctx opCpx s
  | .cpy => withOperand ctx opCpy s
  | .inc => withBoth ctx opInc s
  | .dec => withBoth ctx opDec s
  | .inx => some (opInx s)
  | .iny => some (opIny s)
  | .dex => some (opDex s)
  | .dey => some (opDey s)
  | .asl => shiftHandler mode ctx opAslAccumulator opAsl s
  | .lsr => shiftHandler mode ctx opLsrAccumulator opLsr s
  | .rol => shiftHandler mode ctx opRolAccumulator opRol s
  | .ror => shiftHandler mode ctx opRorAccumulator opRor s
  | .jmp => withAddress ctx opJmp s
  | .jsr => withAddress ctx opJsr s
  | .rts => some (opRts s)
  | .bcc => withOffset ctx opBcc s
  | .bcs => withOffset ctx opBcs s
  | .beq => withOffset ctx opBeq s
  | .bne => withOffset ctx opBne s
  | .bmi => withOffset ctx opBmi s
  | .bpl => withOffset ctx opBpl s
  | .bvc => withOffset ctx opBvc s
  | .bvs => withOffset ctx opBvs s
  | .clc => some (opClc s)
  | .sec => some (opSec s)
  | .cli => some (opCli s)
  | .sei => some (opSei s)
  | .cld => some (opCld s)
  | .sed => some (opSed s)
  | .clv => some (opClv s)
  | .nop => some (opNop s)
  | .brk | .rti | .ill => none

/-- Step 4: the default delta, unless the entry manages PC itself. R123, R124. -/
def applyPcPolicy (e : Entry) (handled : State) : State :=
  if e.managesPc then handled else advancePc handled e.mode.length

/-- `step()` of R101. -/
def engineStep (s : State) : Option State :=
  let opcode := busRead s s.pc
  let e := lookup opcode
  if e.reject then some (s.setAnswer (some .invalid))
  else
    match handler e.mnemonic e.mode (resolveMode e.mode s) s with
    | some handled => some ((applyPcPolicy e handled).setAnswer (some (.executed opcode)))
    | none => none

end Sys2Proof.Machine
end

