-- ==== Sys2Proof/Machine/AnyBus.lean ====
section
/-! DEFINITION. The core over any bus: the one argument the spec leaves pluggable. 00_scope.md R7, 20_memory.md R50 to R54.

A step is a program of bus calls, each call made with what the earlier ones returned, in the order of 20_memory.md R62.
Running the program on flat RAM is `step`, and the calls it then makes are `stepAccesses`: a statement
(Obligations.StepIsItsBusProgramOnFlatRam). What another bus answers is its own affair (R54; log entry 3). -/

namespace Sys2Proof.Machine

/-- The bus: two total operations on whatever state the bus keeps. A read may change that state (R54); the success
result of a write is ignored, so there is none (R51). 20_memory.md R50. -/
structure BusOps (β : Type) where
  read  : Addr → β → Byte × β
  write : Addr → Byte → β → β

/-- The default bus. 20_memory.md R52. -/
def flatRam : BusOps Memory :=
  { read := fun address m => (m.read address.toNat, m), write := fun address v m => m.write address.toNat v }

/-- Bus calls that end in an `α`. -/
inductive BusProgram (α : Type) where
  | done (result : α)
  | read (address : Addr) (next : Byte → BusProgram α)
  | write (address : Addr) (v : Byte) (next : BusProgram α)

/-- One program, then another. -/
def BusProgram.andThen {α γ : Type} (p : BusProgram α) (k : α → BusProgram γ) : BusProgram γ :=
  match p with
  | .done result => k result
  | .read address next => .read address fun v => (next v).andThen k
  | .write address v next => .write address v (next.andThen k)

/-- Run the calls on a bus, each complete before the next. 20_memory.md R53, R69. -/
def BusProgram.runOn {α β : Type} (p : BusProgram α) (bus : BusOps β) (b : β) : α × β :=
  match p with
  | .done result => (result, b)
  | .read address next => (next (bus.read address b).1).runOn bus (bus.read address b).2
  | .write address v next => next.runOn bus (bus.write address v b)

/-- The calls made on a bus, in order. -/
def BusProgram.callsOn {α β : Type} (p : BusProgram α) (bus : BusOps β) (b : β) : List BusAccess :=
  match p with
  | .done _ => []
  | .read address next => .read address :: (next (bus.read address b).1).callsOn bus (bus.read address b).2
  | .write address v next => .write address v :: next.callsOn bus (bus.write address v b)

/-- The CPU State, without the memory that stands behind the bus. 10_state.md R20, R21, R25, R27. -/
structure Registers where
  a     : Byte
  x     : Byte
  y     : Byte
  sp    : Byte
  pc    : Addr
  flags : Flags
  deriving DecidableEq, Repr

/-- The registers of a state. -/
def registers (s : State) : Registers := { a := s.a, x := s.x, y := s.y, sp := s.sp, pc := s.pc, flags := s.flags }

/-- A state with these registers and no memory of its own, for operations that look at no byte of memory. -/
def Registers.bare (r : Registers) : State :=
  { a := r.a, x := r.x, y := r.y, sp := r.sp, pc := r.pc, flags := r.flags, mem := [], answer := none }

/-- What an operation does to the registers. -/
def Registers.apply (r : Registers) (op : State → State) : Registers := registers (op r.bare)

/-- Read a word, low byte then high byte. 20_memory.md R56, R62. -/
def readWord {α : Type} (low high : Addr) (k : Addr → BusProgram α) : BusProgram α :=
  .read low fun lo => .read high fun hi => k (hiLo hi lo)

/-- The operand bytes of an instruction, in ascending address order. 20_memory.md R62, items 2 and 3. -/
def operandProgram {α : Type} (mode : Mode) (r : Registers) (k : Operand → BusProgram α) : BusProgram α :=
  if mode.length = 3 then .read (r.pc + 1) fun b1 => .read (r.pc + 2) fun b2 => k (operandOf mode b1 b2)
  else if mode.length = 2 then .read (r.pc + 1) fun b1 => k (operandOf mode b1 0)
  else k (operandOf mode 0 0)

/-- The address of a memory operand; the pointer reads of the two indirect modes. R62, item 4. -/
def addressProgram {α : Type} (m : MemOperand) (r : Registers) (k : Addr → BusProgram α) : BusProgram α :=
  match m with
  | .indexedIndirectX zp => readWord (zext16 (zp + r.x)) (zext16 (zp + r.x + 1)) k
  | .indirectIndexedY zp => readWord (zext16 zp) (zext16 (zp + 1)) fun pointer => k (pointer + zext16 r.y)
  | .zeroPage _ | .zeroPageX _ | .zeroPageY _ | .absolute _ | .absoluteX _ | .absoluteY _ =>
    k (effectiveAddress m r.bare)

/-- The context of an operand, with the operand read of every memory mode. R60, R62, items 4 and 5. -/
def contextProgram {α : Type} (o : Operand) (r : Registers) (k : Context → BusProgram α) : BusProgram α :=
  match o with
  | .memory m => addressProgram m r fun address => .read address fun v =>
      k { operand := some v, zp := zeroPageByte m, offset := none, address := some address }
  | .indirect pointer => readWord pointer (pointer + 1) fun target => k { Context.empty with address := some target }
  | .implied | .accumulator | .illegal | .immediate _ | .relative _ => k (resolve o r.bare)

/-- The handler and its own bus calls. R62, item 6. -/
def handlerProgram (e : Entry) (ctx : Context) (r : Registers) : BusProgram Registers :=
  let after := r.apply fun s => (handler e.mnemonic e.mode ctx s).getD s
  match e.mnemonic with
  | .sta | .stx | .sty | .inc | .dec | .asl | .lsr | .rol | .ror =>
    match ctx.address, storedByte e.mnemonic ctx.operand r.bare with
    | some address, some v => .write address v (.done after)
    | _, _ => .done after
  | .pha => .write (stackAddress r.sp) r.a (.done after)
  | .php => .write (stackAddress r.sp) (pack r.flags) (.done after)
  | .jsr =>
    .write (stackAddress r.sp) (highByte (r.pc + 3)) (.write (stackAddress (r.sp - 1)) (lowByte (r.pc + 3)) (.done after))
  | .pla => .read (stackAddress (r.sp + 1)) fun v => .done (r.apply fun s => loadA v (popped s))
  | .plp => .read (stackAddress (r.sp + 1)) fun v => .done (r.apply fun s => (popped s).setFlags (unpack v))
  | .rts =>
    readWord (stackAddress (r.sp + 1)) (stackAddress (r.sp + 1 + 1)) fun address =>
      .done (r.apply fun s => (popped (popped s)).setPc address)
  | .lda | .ldx | .ldy | .tax | .tay | .txa | .tya | .tsx | .txs | .and | .ora | .eor | .bit | .adc | .sbc
  | .cmp | .cpx | .cpy | .inx | .iny | .dex | .dey | .jmp | .bcc | .bcs | .beq | .bne | .bmi | .bpl | .bvc | .bvs
  | .clc | .sec | .cli | .sei | .cld | .sed | .clv | .nop | .brk | .rti | .ill => .done after

/-- One step of the core over any bus: what it returns and the registers after. 40_step_and_addressing.md R101. -/
def stepProgram (r : Registers) : BusProgram (StepResult × Registers) :=
  .read r.pc fun opcode =>
    let e := lookup opcode
    if e.reject then .done (.invalid, r)
    else
      operandProgram e.mode r fun o => contextProgram o r fun ctx =>
        (handlerProgram e ctx r).andThen fun after => .done (.executed opcode, after.apply (applyPcPolicy e))

end Sys2Proof.Machine
end

