-- ==== Sys2Proof/Machine/Requests.lean ====
section
/-! DEFINITION. The host interface: the requests the core answers between steps. 60_exceptions.md R257,
70_reset_and_hazards.md R260 to R268, R281. Log entry 9. -/

namespace Sys2Proof.Machine

/-- `init`: power-on initialisation, whatever there was before. 70_reset_and_hazards.md R260. -/
def initRequest (_s : State) : State := State.reset

/-- What `reset` makes of the registers once the vector is read: A, X, Y zeroed, SP = 0xFF, PC the vector; the flags
unchanged. 70_reset_and_hazards.md R263. -/
def resetTo (vector : Addr) (s : State) : State :=
  ((((s.setA 0x00).setX 0x00).setY 0x00).setSp Config.spReset).setPc vector

/-- `reset`: PC from the vector as it stands; flags and memory unchanged. 70_reset_and_hazards.md R263, R265. -/
def resetRequest (s : State) : State := resetTo (busReadWord s Config.resetVector) s

/-- What `load` answers. 70_reset_and_hazards.md R266. -/
inductive LoadReply where
  | ok
  | sizeError
  deriving DecidableEq, Repr

/-- The vector set to the load base, low byte then high byte. 70_reset_and_hazards.md R266. -/
def pointVector (s : State) : State :=
  busWrite (busWrite s Config.resetVector (lowByte Config.loadBase)) (Config.resetVector + 1) (highByte Config.loadBase)

/-- The state after `load`: the image at the load base and the vector, or, of an image that is too long, nothing. No
register is written. 70_reset_and_hazards.md R266, R267. -/
def loadRequest (image : List Byte) (s : State) : State :=
  if image.length > Config.maxImage then s else pointVector (storeBytes s Config.loadBase image)

/-- The answer of `load`. 70_reset_and_hazards.md R266, R268. -/
def loadReply (image : List Byte) : LoadReply :=
  if image.length > Config.maxImage then .sizeError else .ok

/-- A host write of one piece of state, any value of its width. 70_reset_and_hazards.md R281, decision D25. -/
inductive HostWrite where
  | a (v : Byte) | x (v : Byte) | y (v : Byte) | sp (v : Byte) | pc (v : Addr)
  | flags (v : Flags)
  | memory (address : Addr) (v : Byte)
  deriving DecidableEq, Repr

/-- The effect of a host write. 70_reset_and_hazards.md R281. -/
def hostWrite (w : HostWrite) (s : State) : State :=
  match w with
  | .a v => s.setA v
  | .x v => s.setX v
  | .y v => s.setY v
  | .sp v => s.setSp v
  | .pc v => s.setPc v
  | .flags v => s.setFlags v
  | .memory address v => busWrite s address v

/-- What `step` returns from a state: the sentinel, or the opcode executed, the byte at PC. A function of the state, as
every output is; `State.answer` holds it after the step. 40_step_and_addressing.md R107. -/
def stepResult (s : State) : StepResult :=
  if (fetchInstr s).mnemonic.rejected then .invalid else .executed (busRead s s.pc)

/-- The read-only view of the registers and flags. 60_exceptions.md R255, R257. -/
structure View where
  a      : Byte
  x      : Byte
  y      : Byte
  sp     : Byte
  pc     : Addr
  flags  : Flags
  packed : Byte
  deriving DecidableEq, Repr

/-- The view of a state. 60_exceptions.md R257. -/
def inspect (s : State) : View :=
  { a := s.a, x := s.x, y := s.y, sp := s.sp, pc := s.pc, flags := s.flags, packed := pack s.flags }

/-- A request of the host. 60_exceptions.md R257, 70_reset_and_hazards.md R281. -/
inductive Request where
  | init
  | load (image : List Byte)
  | reset
  | step
  | write (w : HostWrite)
  | inspect
  | readMemory (address : Addr)
  | lookup (op : Byte)
  deriving DecidableEq, Repr

/-- What a request answers. 60_exceptions.md R257. -/
inductive Reply where
  | none
  | loaded (r : LoadReply)
  | stepped (r : StepResult)
  | view (v : View)
  | byte (v : Byte)
  | entry (e : Entry)
  deriving DecidableEq, Repr

/-- Answer one request: the reply and the state after. Requests are atomic with respect to each other.
60_exceptions.md R257, 20_memory.md R70. -/
def serve (r : Request) (s : State) : Host.Outcome (Reply × State) Fault Refusal :=
  match r with
  | .init => .next (.none, initRequest s)
  | .load image => .next (.loaded (loadReply image), loadRequest image s)
  | .reset => .next (.none, resetRequest s)
  | .step =>
    match step s with
    | .next t => .next (.stepped (stepResult s), t)
    | .fault f => .fault f
    | .refused f => .refused f
  | .write w => .next (.none, hostWrite w s)
  | .inspect => .next (.view (Machine.inspect s), s)
  | .readMemory address => .next (.byte (busRead s address), s)
  | .lookup op => .next (.entry (Sys2Proof.lookup op), s)

end Sys2Proof.Machine
end

