-- ==== Sys2Proof/Machine/AnyBusRequests.lean ====
section
/-! DEFINITION. Every request of the host over any bus. 00_scope.md R7, 20_memory.md R54, 60_exceptions.md R255, R257.

`reset` reads its vector, `load` writes its image and an inspection reads its byte through whatever bus the core has;
`step` is `stepProgram`. On flat RAM each is the request of Machine/Requests.lean (Laws/AnyBus.lean, and for `step`
Obligations.StepIsItsBusProgramOnFlatRam). -/

namespace Sys2Proof.Machine

/-- Write bytes at consecutive addresses from `address` up, modulo 65536, in ascending order.
70_reset_and_hazards.md R266. -/
def writeBytes {α : Type} (address : Addr) (bytes : List Byte) (next : BusProgram α) : BusProgram α :=
  match bytes with
  | [] => next
  | b :: rest => .write address b (writeBytes (address + 1) rest next)

/-- `reset`: two reads, the vector's low byte and then its high byte, and no write. 70_reset_and_hazards.md R263. -/
def resetProgram (r : Registers) : BusProgram Registers :=
  readWord Config.resetVector (Config.resetVector + 1) fun vector => .done (r.apply (resetTo vector))

/-- `load`: the image in ascending order, then the vector, low byte and then high byte; of an image that is too long no
call at all. 70_reset_and_hazards.md R266. -/
def loadProgram (image : List Byte) : BusProgram LoadReply :=
  if image.length > Config.maxImage then .done (loadReply image)
  else
    writeBytes Config.loadBase image
      (.write Config.resetVector (lowByte Config.loadBase)
        (.write (Config.resetVector + 1) (highByte Config.loadBase) (.done (loadReply image))))

/-- A direct write by the host; one of memory is a bus write. 70_reset_and_hazards.md R281; log entry 10. -/
def hostWriteProgram (w : HostWrite) (r : Registers) : BusProgram Registers :=
  match w with
  | .memory address v => .write address v (.done r)
  | .a _ | .x _ | .y _ | .sp _ | .pc _ | .flags _ => .done (r.apply (hostWrite w))

/-- The bus calls of a request, what it answers and the registers after. `init` makes none: its sequence is on the
default memory itself (70_reset_and_hazards.md R260; log entry 10). 60_exceptions.md R255, R257. -/
def requestProgram (q : Request) (r : Registers) : BusProgram (Reply × Registers) :=
  match q with
  | .init => .done (.none, r.apply initRequest)
  | .load image => (loadProgram image).andThen fun reply => .done (.loaded reply, r)
  | .reset => (resetProgram r).andThen fun after => .done (.none, after)
  | .step => (stepProgram r).andThen fun p => .done (.stepped p.1, p.2)
  | .write w => (hostWriteProgram w r).andThen fun after => .done (.none, after)
  | .inspect => .done (.view (inspect r.bare), r)
  | .readMemory address => .read address fun v => .done (.byte v, r)
  | .lookup op => .done (.entry (Sys2Proof.lookup op), r)

/-- The bus a request starts on. The bus is created together with the CPU State, so `init` starts on one in the state
it is created in, every other request on the bus as it stands. 70_reset_and_hazards.md R260. -/
def busFor {β : Type} (q : Request) (created current : β) : β :=
  match q with
  | .init => created
  | .load _ | .reset | .step | .write _ | .inspect | .readMemory _ | .lookup _ => current

/-- Answer a request over a bus: the reply, the registers and the bus after. `created` is the state the bus is created
in; for flat RAM it is `State.reset.mem`. 60_exceptions.md R257. -/
def serveOn {β : Type} (bus : BusOps β) (created : β) (q : Request) (r : Registers) (b : β) : (Reply × Registers) × β :=
  (requestProgram q r).runOn bus (busFor q created b)

/-- The bus calls of a request on flat RAM, in order. -/
def requestAccesses (q : Request) (s : State) : List BusAccess :=
  (requestProgram q (registers s)).callsOn flatRam (busFor q State.reset.mem s.mem)

end Sys2Proof.Machine
end

