-- ==== Sys2Proof/Safety.lean ====
section
/-! DEFINITION. What counts as a safe run, and the run loop. A run is safe as long as no step is rejected: the
rejection is the only thing that can go wrong (60_exceptions.md R240, R245). -/

namespace Sys2Proof.Machine

/-- The invariant of the state: memory is in canonical form. Every other field takes any value of its width. -/
abbrev State.wf (s : State) : Prop := s.mem.wf

/-- The first `n` steps from `s` each execute an instruction. -/
def SafeFor (n : Nat) (s : State) : Prop :=
  match n with
  | 0 => True
  | k + 1 => ∃ t, step s = .next t ∧ t.answer ≠ some .invalid ∧ SafeFor k t

/-- How a run of the loop ends: at a rejection, after so many executed instructions, or at the host's bound. -/
inductive RunEnd where
  | rejected (executed : Nat) (s : State)
  | bound (s : State)
  deriving DecidableEq, Repr

/-- The run loop: call step until it returns the sentinel, at most `fuel` times, `executed` instructions so far.
70_reset_and_hazards.md R272, R279. -/
def runLoop (fuel executed : Nat) (s : State) : Host.Outcome RunEnd Fault Refusal :=
  match fuel with
  | 0 => .next (.bound s)
  | k + 1 =>
    match step s with
    | .next t => if t.answer = some .invalid then .next (.rejected executed t) else runLoop k (executed + 1) t
    | .fault f => .fault f
    | .refused f => .refused f

end Sys2Proof.Machine
end

