-- ==== Sys2Proof/Certificates/Slice0/Obligations.lean ====
section
/-! DEFINITION. The statements for the provers. Each docstring names the rules of spec/ it rests on; "derived" marks a
statement that rests on a decision or a derivation the spec marks as its own, or on a log entry of the model. The result
statements give the whole next state, so each is its instruction's completion statement and frame as well. -/

open Sys2Proof Sys2Proof.Machine

/-- Decoding the bytes of a well-formed instruction gives it back, with every operand value. Derived: 30_encoding.md
R80, R84, R88, R89, R91, R92, 92_eei_decisions.md D11. -/
def Obligations.DecodeOfEncodeIsTheInstruction : Prop :=
  ∀ (i : Instr) (rest : List Byte), i.wellFormed = true → decode (encode i ++ rest) = .ok (i, rest)

/-- Every opcode byte decodes to a well-formed instruction that encodes back to the bytes it was read from. Derived:
30_encoding.md R80, R84, R88, R89, R91, R92, 92_eei_decisions.md D11. -/
def Obligations.EncodeOfDecodeIsTheBytes : Prop :=
  ∀ op b1 b2 : Byte, (decodeInstr op b1 b2).wellFormed = true ∧
    encode (decodeInstr op b1 b2) = [op, b1, b2].take (decodeInstr op b1 b2).length

/-- The four opcode table entries the source document itself gives. Stated: R90. -/
def Obligations.DocumentedEntriesDecode : Prop :=
  (lookup 0xA9).mnemonic = .lda ∧ (lookup 0xA9).mode = .immediate ∧
  (lookup 0xAA).mnemonic = .tax ∧ (lookup 0xAA).mode = .implied ∧
  (lookup 0xC9).mnemonic = .cmp ∧ (lookup 0xC9).mode = .immediate ∧
  (lookup 0x02).mnemonic = .ill ∧ (lookup 0x02).mode = .illegal ∧
  decode [0xA9, 0x05, 0xAA] = .ok (.ldaImmediate 0x05, [0xAA]) ∧ decode [0xAA] = .ok (.tax, []) ∧
  decode [0xC9, 0x00] = .ok (.cmpImmediate 0x00, []) ∧ decode [0x02] = .ok (.ill 0x02, [])

/-- Words written out from the encoding rules decode to their instructions, one or more for every family. Derived:
30_encoding.md R88, R91, 92_eei_decisions.md D11. -/
def Obligations.WrittenOutWordsDecode : Prop :=
  decode [0xB5, 0xF0] = .ok (.ldaZeroPageX 0xF0, []) ∧ decode [0x8D, 0x0A, 0x80] = .ok (.staAbsolute 0x800A, []) ∧
  decode [0x9A] = .ok (.txs, []) ∧ decode [0x2C, 0x00, 0x02] = .ok (.bitAbsolute 0x0200, []) ∧
  decode [0xF1, 0x40] = .ok (.sbcIndirectIndexedY 0x40, []) ∧ decode [0xDE, 0x00, 0x02] = .ok (.decAbsoluteX 0x0200, []) ∧
  decode [0x6A] = .ok (.rorAccumulator, []) ∧ decode [0x6C, 0x10, 0x80] = .ok (.jmpIndirect 0x8010, []) ∧
  decode [0xD0, 0xFB] = .ok (.bne 0xFB, []) ∧ decode [0xB8] = .ok (.clv, []) ∧ decode [0x00] = .ok (.brk, [])

/-- The bytes after the opcode never affect row, mode or length; an Illegal entry has length 1. Stated: R84. -/
def Obligations.LengthAndRowComeFromTheOpcodeByte : Prop :=
  ∀ op b1 b2 : Byte, (decodeInstr op b1 b2).opcode = op ∧ (lookup op).opcode = op ∧
    (decodeInstr op b1 b2).mnemonic = (lookup op).mnemonic ∧ (decodeInstr op b1 b2).operand.mode = (lookup op).mode ∧
    (decodeInstr op b1 b2).length = (lookup op).mode.length ∧ Mode.illegal.length = 1

/-- When the bytes at PC decode to an instruction, the step is that instruction's meaning and nothing more. Derived:
40_step_and_addressing.md R101, R104. -/
def Obligations.StepRunsTheDecodedInstruction : Prop :=
  ∀ (s : State) (i : Instr) (rest : List Byte),
    decode [busRead s s.pc, busRead s (s.pc + 1), busRead s (s.pc + 2)] = .ok (i, rest) → step s = exec i s

/-- Every step answers a next state; its result is the opcode byte executed, or 0x7FFF. Stated: R107. The field answer
that holds the result is the model's own place for the output (log entry 2). -/
def Obligations.StepReturnsTheOpcodeOrTheSentinel : Prop :=
  ∀ s : State, ∃ t : State, step s = .next t ∧
    t.answer.map StepResult.code =
      some (if (fetchInstr s).mnemonic.rejected then 0x7FFF else (busRead s s.pc).setWidth 16) ∧
    t.answer = some (stepResult s)

/-- The machine's step equals the spec's own step pseudocode over the opcode table, context and handlers. Stated: R101. -/
def Obligations.StepIsTheTableDrivenEngine : Prop :=
  ∀ s : State, ∃ t : State, engineStep s = some t ∧ step s = .next t

/-- The core over any bus, run on flat RAM, is the machine's step, and makes exactly the step's bus accesses. Derived:
00_scope.md R7, 20_memory.md R50, R52, R54, R59, R60, R62, R69, 92_eei_decisions.md D17. The order among the
resolver's reads rests on the spec's own decision D17. -/
def Obligations.StepIsItsBusProgramOnFlatRam : Prop :=
  ∀ s : State, ∃ t : State, step s = .next t ∧
    (stepProgram (registers s)).runOn flatRam s.mem = ((stepResult s, registers t), t.mem) ∧
    (stepProgram (registers s)).callsOn flatRam s.mem = stepAccesses s

/-- Every step keeps memory in its canonical form. Derived: 20_memory.md R50, R52. The canonical form is the model's own
choice (log entry 4), not a rule of the spec. -/
def Obligations.StepKeepsMemoryCanonical : Prop :=
  ∀ s t : State, s.wf → step s = .next t → t.wf

/-- The memory of the reset state is in canonical form. Derived: 70_reset_and_hazards.md R260, R261. The canonical form
is the model's own choice (log entry 4), not a rule of the spec. -/
def Obligations.ResetMemoryIsCanonical : Prop :=
  State.reset.wf

/-- Every host request keeps memory in its canonical form. Derived: 60_exceptions.md R257, 70_reset_and_hazards.md R260,
R263, R266, R281. The canonical form is the model's own choice (log entry 4), not a rule of the spec. -/
def Obligations.HostRequestsKeepMemoryCanonical : Prop :=
  ∀ (r : Request) (s t : State) (reply : Reply), s.wf → serve r s = .next (reply, t) → t.wf

/-- The next state does not depend on what the last step returned. Derived: 10_state.md R38, 40_step_and_addressing.md
R107. The answer field is the model's own (log entry 2). -/
def Obligations.TheAnswerIsNeverRead : Prop :=
  ∀ (s : State) (r : Option StepResult), step (s.setAnswer r) = step s

/-- A step is rejected exactly when the byte at PC is one of the 105 Illegal bytes, 0x00 or 0x40; its result is 0x7FFF.
Stated: R240. -/
def Obligations.ExactlyTheRejectedBytesRaiseInvalidInstruction : Prop :=
  ∀ s : State,
    ((∃ t : State, step s = .next t ∧ t.answer.map StepResult.code = some 0x7FFF) ↔
      (busRead s s.pc ∈ illegalOpcodes ∨ busRead s s.pc = 0x00 ∨ busRead s s.pc = 0x40)) ∧
    ((busRead s s.pc ∈ illegalOpcodes ∨ busRead s s.pc = 0x00 ∨ busRead s s.pc = 0x40) →
      step s = .next { s with answer := some .invalid })

/-- A rejected step writes nothing, leaves PC, and makes one bus access. Stated: R241. The model's own answer field
takes the sentinel (log entry 2). -/
def Obligations.RejectedStepWritesNothing : Prop :=
  ∀ s : State, (fetchInstr s).mnemonic.rejected = true →
    (∃ t : State, step s = .next t ∧ t.a = s.a ∧ t.x = s.x ∧ t.y = s.y ∧ t.sp = s.sp ∧ t.pc = s.pc ∧
      t.flags = s.flags ∧ t.mem = s.mem ∧ t.answer.map StepResult.code = some 0x7FFF) ∧
    stepAccesses s = [.read s.pc]

/-- Each Illegal opcode takes the rejection: nothing changes, the result is the sentinel. Stated: R230. Constructor:
ill. -/
def Obligations.IllegalOpcodesTakeTheRejection : Prop :=
  ∀ (opcode : Byte) (s : State), exec (.ill opcode) s = .next { s with answer := some .invalid } ∧
    StepResult.code .invalid = 0x7FFF ∧ ((Instr.ill opcode).wellFormed = true ↔ opcode ∈ illegalOpcodes) ∧
    illegalOpcodes.length = 105 ∧ (Instr.ill opcode).length = 1

/-- BRK and RTI take the rejection: nothing is pushed or popped, no flag is written, PC stays. Derived:
48_flag_nop_system.md R228, R229, 92_eei_decisions.md D10. Constructors: brk, rti. Rests on the spec's own decision
D10. -/
def Obligations.BrkAndRtiTakeTheRejection : Prop :=
  ∀ s : State, exec .brk s = .next { s with answer := some .invalid } ∧
    exec .rti s = .next { s with answer := some .invalid } ∧ Instr.brk.opcode = 0x00 ∧ Instr.rti.opcode = 0x40

/-- Stepping again after a rejection gives the same rejection for ever. Derived: 60_exceptions.md R250,
92_eei_decisions.md D21. -/
def Obligations.ARejectionRepeatsForEver : Prop :=
  ∀ run : Nat → State, (∀ k, step (run k) = .next (run (k + 1))) → (fetchInstr (run 0)).mnemonic.rejected = true →
    ∀ k, run (k + 1) = { run 0 with answer := some .invalid }

/-- An executed instruction that does not manage PC advances it by its mode's length, modulo 65536. Stated: R123. -/
def Obligations.PcAdvancesByTheDefaultDelta : Prop :=
  ∀ (i : Instr) (s : State),
    i.mnemonic ∉ [Mnemonic.jmp, .jsr, .rts, .bcc, .bcs, .beq, .bne, .bmi, .bpl, .bvc, .bvs] →
    i.mnemonic ∉ [Mnemonic.brk, .rti, .ill] →
    ∃ t : State, exec i s = .next t ∧
      ((i.operand.mode ∈ [Mode.implied, .accumulator] ∧ t.pc = s.pc + 1) ∨
       (i.operand.mode ∈ [Mode.immediate, .zeroPage, .zeroPageX, .zeroPageY, .indexedIndirectX, .indirectIndexedY] ∧
         t.pc = s.pc + 2) ∨
       (i.operand.mode ∈ [Mode.absolute, .absoluteX, .absoluteY] ∧ t.pc = s.pc + 3))

/-- Implied, Accumulator, Immediate and ZeroPage: the context each mode builds. Stated: R108, R109, R110, R111. -/
def Obligations.DirectModesPopulateTheContext : Prop :=
  ∀ (b1 : Byte) (s : State),
    resolve .implied s = { operand := none, zp := none, offset := none, address := none } ∧
    resolve .accumulator s = { operand := none, zp := none, offset := none, address := none } ∧
    resolve (.immediate b1) s = { operand := some b1, zp := none, offset := none, address := none } ∧
    resolve (.memory (.zeroPage b1)) s =
      { operand := some (busRead s (b1.setWidth 16)), zp := some b1, offset := none, address := some (b1.setWidth 16) } ∧
    operandByteReads Mode.implied.length s ++ pointerReads .implied s ++ operandRead .implied s = [] ∧
    operandByteReads Mode.accumulator.length s ++ pointerReads .accumulator s ++ operandRead .accumulator s = [] ∧
    operandByteReads Mode.immediate.length s ++ pointerReads (.immediate b1) s ++ operandRead (.immediate b1) s =
      [.read (s.pc + 1)] ∧
    operandByteReads Mode.zeroPage.length s ++ pointerReads (.memory (.zeroPage b1)) s ++
      operandRead (.memory (.zeroPage b1)) s = [.read (s.pc + 1), .read (b1.setWidth 16)] ∧
    Mode.implied.length = 1 ∧ Mode.accumulator.length = 1 ∧ Mode.immediate.length = 2 ∧ Mode.zeroPage.length = 2 ∧
    (∀ i : Instr, i.operand.mode = .accumulator ↔ i ∈ [Instr.aslAccumulator, .lsrAccumulator, .rolAccumulator, .rorAccumulator]) ∧
    (∀ i : Instr, i.mnemonic ∈ [Mnemonic.brk, .rti, .rts, .pha, .php, .pla, .plp, .clc, .sec, .cli, .sei, .cld, .sed,
      .clv, .nop, .tax, .tay, .txa, .tya, .tsx, .txs, .inx, .iny, .dex, .dey] ↔ i.operand.mode = .implied)

/-- ZeroPageX and ZeroPageY add the index modulo 256; Absolute uses its word, AbsoluteX and AbsoluteY add the index
modulo 65536. Derived: 40_step_and_addressing.md R112, R113, R114, R115, R116, R117, 92_eei_decisions.md D5, D6, D7,
D20. Rests on the spec's own decisions D5, D6, D7 and D20. -/
def Obligations.IndexedModesAddTheIndex : Prop :=
  ∀ (b1 : Byte) (w : Addr) (s : State),
    resolve (.relative b1) s = { operand := some b1, zp := none, offset := some b1, address := none } ∧
    (∃ p : Addr, resolve (.memory (.zeroPageX b1)) s =
        { operand := some (busRead s p), zp := some b1, offset := none, address := some p } ∧
      p.toNat = (b1.toNat + s.x.toNat) % 256) ∧
    (∃ p : Addr, resolve (.memory (.zeroPageY b1)) s =
        { operand := some (busRead s p), zp := some b1, offset := none, address := some p } ∧
      p.toNat = (b1.toNat + s.y.toNat) % 256) ∧
    resolve (.memory (.absolute w)) s =
      { operand := some (busRead s w), zp := none, offset := none, address := some w } ∧
    (∃ p : Addr, resolve (.memory (.absoluteX w)) s =
        { operand := some (busRead s p), zp := none, offset := none, address := some p } ∧
      p.toNat = (w.toNat + s.x.toNat) % 65536) ∧
    (∃ p : Addr, resolve (.memory (.absoluteY w)) s =
        { operand := some (busRead s p), zp := none, offset := none, address := some p } ∧
      p.toNat = (w.toNat + s.y.toNat) % 65536)

/-- The three indirect modes read little-endian pointers; zero-page pointers wrap in page zero, the JMP pointer does not
wrap in its page. Derived: 40_step_and_addressing.md R120, R121, R122, 92_eei_decisions.md D8, D9. Rests on the
spec's own decisions D8 and D9. -/
def Obligations.IndirectModesFollowLittleEndianPointers : Prop :=
  ∀ (b1 : Byte) (w : Addr) (s : State),
    (∃ p : Addr, resolve (.indirect w) s = { operand := none, zp := none, offset := none, address := some p } ∧
      p.toNat = (s.mem.read ((w.toNat + 1) % 65536)).toNat * 256 + (s.mem.read w.toNat).toNat) ∧
    (∃ p : Addr, resolve (.memory (.indexedIndirectX b1)) s =
        { operand := some (busRead s p), zp := some b1, offset := none, address := some p } ∧
      p.toNat = (s.mem.read ((b1.toNat + s.x.toNat + 1) % 256)).toNat * 256 +
        (s.mem.read ((b1.toNat + s.x.toNat) % 256)).toNat) ∧
    (∃ p : Addr, resolve (.memory (.indirectIndexedY b1)) s =
        { operand := some (busRead s p), zp := some b1, offset := none, address := some p } ∧
      p.toNat = ((s.mem.read ((b1.toNat + 1) % 256)).toNat * 256 + (s.mem.read b1.toNat).toNat + s.y.toNat) % 65536)

/-- LDA, LDX, LDY copy the operand byte to their register and set Z and N from it; nothing else changes. Stated: R140,
R141, R142. Constructors: ldaImmediate, ldaZeroPage, ldaZeroPageX, ldaAbsolute, ldaAbsoluteX, ldaAbsoluteY,
ldaIndexedIndirectX, ldaIndirectIndexedY, ldxImmediate, ldxZeroPage, ldxZeroPageY, ldxAbsolute, ldxAbsoluteY,
ldyImmediate, ldyZeroPage, ldyZeroPageX, ldyAbsolute, ldyAbsoluteX. -/
def Obligations.LoadsWriteRegisterZeroAndNegative : Prop :=
  ∀ (i : Instr) (s : State),
    (i.mnemonic = .lda →
      (i.operand.mode, i.opcode) ∈ ([(.immediate, 0xA9), (.zeroPage, 0xA5), (.zeroPageX, 0xB5), (.absolute, 0xAD),
        (.absoluteX, 0xBD), (.absoluteY, 0xB9), (.indexedIndirectX, 0xA1),
        (.indirectIndexedY, 0xB1)] : List (Mode × Byte)) ∧
      handlerAccesses i s = [] ∧ ∃ v : Byte, (resolve i.operand s).operand = some v ∧
        exec i s = .next { s with
          a := v, flags := { s.flags with z := v == 0, n := v.getLsbD 7 },
          pc := s.pc + BitVec.ofNat 16 i.length, answer := some (.executed i.opcode) }) ∧
    (i.mnemonic = .ldx →
      (i.operand.mode, i.opcode) ∈ ([(.immediate, 0xA2), (.zeroPage, 0xA6), (.zeroPageY, 0xB6), (.absolute, 0xAE),
        (.absoluteY, 0xBE)] : List (Mode × Byte)) ∧
      handlerAccesses i s = [] ∧ ∃ v : Byte, (resolve i.operand s).operand = some v ∧
        exec i s = .next { s with
          x := v, flags := { s.flags with z := v == 0, n := v.getLsbD 7 },
          pc := s.pc + BitVec.ofNat 16 i.length, answer := some (.executed i.opcode) }) ∧
    (i.mnemonic = .ldy →
      (i.operand.mode, i.opcode) ∈ ([(.immediate, 0xA0), (.zeroPage, 0xA4), (.zeroPageX, 0xB4), (.absolute, 0xAC),
        (.absoluteX, 0xBC)] : List (Mode × Byte)) ∧
      handlerAccesses i s = [] ∧ ∃ v : Byte, (resolve i.operand s).operand = some v ∧
        exec i s = .next { s with
          y := v, flags := { s.flags with z := v == 0, n := v.getLsbD 7 },
          pc := s.pc + BitVec.ofNat 16 i.length, answer := some (.executed i.opcode) })

/-- STA, STX, STY write their register to the resolved address and change no flag. Stated: R143, R144, R145.
Constructors: staZeroPage, staZeroPageX, staAbsolute, staAbsoluteX, staAbsoluteY, staIndexedIndirectX,
staIndirectIndexedY, stxZeroPage, stxZeroPageY, stxAbsolute, styZeroPage, styZeroPageX, styAbsolute. -/
def Obligations.StoresWriteOneByteAndNoFlag : Prop :=
  ∀ (i : Instr) (s : State),
    (i.mnemonic = .sta →
      (i.operand.mode, i.opcode) ∈ ([(.zeroPage, 0x85), (.zeroPageX, 0x95), (.absolute, 0x8D), (.absoluteX, 0x9D),
        (.absoluteY, 0x99), (.indexedIndirectX, 0x81), (.indirectIndexedY, 0x91)] : List (Mode × Byte)) ∧
      ∃ p : Addr, (resolve i.operand s).address = some p ∧ (resolve i.operand s).operand = some (busRead s p) ∧
        handlerAccesses i s = [.write p s.a] ∧
        exec i s = .next { s with
          mem := s.mem.write p.toNat s.a,
          pc := s.pc + BitVec.ofNat 16 i.length, answer := some (.executed i.opcode) }) ∧
    (i.mnemonic = .stx →
      (i.operand.mode, i.opcode) ∈ ([(.zeroPage, 0x86), (.zeroPageY, 0x96),
        (.absolute, 0x8E)] : List (Mode × Byte)) ∧
      ∃ p : Addr, (resolve i.operand s).address = some p ∧ (resolve i.operand s).operand = some (busRead s p) ∧
        handlerAccesses i s = [.write p s.x] ∧
        exec i s = .next { s with
          mem := s.mem.write p.toNat s.x,
          pc := s.pc + BitVec.ofNat 16 i.length, answer := some (.executed i.opcode) }) ∧
    (i.mnemonic = .sty →
      (i.operand.mode, i.opcode) ∈ ([(.zeroPage, 0x84), (.zeroPageX, 0x94),
        (.absolute, 0x8C)] : List (Mode × Byte)) ∧
      ∃ p : Addr, (resolve i.operand s).address = some p ∧ (resolve i.operand s).operand = some (busRead s p) ∧
        handlerAccesses i s = [.write p s.y] ∧
        exec i s = .next { s with
          mem := s.mem.write p.toNat s.y,
          pc := s.pc + BitVec.ofNat 16 i.length, answer := some (.executed i.opcode) })

/-- TAX, TAY, TXA, TYA, TSX copy a register and set Z and N from the value. Stated: R152, R153, R154, R155, R156.
Constructors: tax, tay, txa, tya, tsx. -/
def Obligations.TransfersCopyAndSetZeroAndNegative : Prop :=
  ∀ s : State,
    exec .tax s = .next { s with
      x := s.a, flags := { s.flags with z := s.a == 0, n := s.a.getLsbD 7 }, pc := s.pc + 1,
      answer := some (.executed 0xAA) } ∧
    exec .tay s = .next { s with
      y := s.a, flags := { s.flags with z := s.a == 0, n := s.a.getLsbD 7 }, pc := s.pc + 1,
      answer := some (.executed 0xA8) } ∧
    exec .txa s = .next { s with
      a := s.x, flags := { s.flags with z := s.x == 0, n := s.x.getLsbD 7 }, pc := s.pc + 1,
      answer := some (.executed 0x8A) } ∧
    exec .tya s = .next { s with
      a := s.y, flags := { s.flags with z := s.y == 0, n := s.y.getLsbD 7 }, pc := s.pc + 1,
      answer := some (.executed 0x98) } ∧
    exec .tsx s = .next { s with
      x := s.sp, flags := { s.flags with z := s.sp == 0, n := s.sp.getLsbD 7 }, pc := s.pc + 1,
      answer := some (.executed 0xBA) } ∧
    handlerAccesses .tsx s = []

/-- TXS copies X to SP and, on this hardware, sets Z and N. Derived: 42_transfer_stack.md R157, 92_eei_decisions.md D12.
Constructor: txs. Rests on the spec's own decision D12. -/
def Obligations.TxsCopiesAndSetsZeroAndNegative : Prop :=
  ∀ s : State,
    exec .txs s = .next { s with
      sp := s.x, flags := { s.flags with z := s.x == 0, n := s.x.getLsbD 7 }, pc := s.pc + 1,
      answer := some (.executed 0x9A) }

/-- Push writes at 0x0100 | SP then decrements SP; Pop increments SP then reads; push then pop restores. Stated: R150,
R151. -/
def Obligations.PushAndPopAreNestedInPageOne : Prop :=
  ∀ (s : State) (v : Byte),
    push s v = { s with mem := s.mem.write (0x0100 + s.sp.toNat) v, sp := BitVec.ofInt 8 (s.sp.toNat - 1) } ∧
    popped s = { s with sp := BitVec.ofNat 8 (s.sp.toNat + 1) } ∧
    popByte s = s.mem.read (0x0100 + (s.sp.toNat + 1) % 256) ∧
    popByte (push s v) = v ∧ (popped (push s v)).sp = s.sp

/-- PHA pushes A and changes no flag. Stated: R158. Constructor: pha. -/
def Obligations.PhaPushesTheAccumulator : Prop :=
  ∀ s : State, exec .pha s = .next { s with
      mem := s.mem.write (stackAddress s.sp).toNat s.a, sp := s.sp - 1, pc := s.pc + 1,
      answer := some (.executed 0x48) }

/-- PHP pushes the packed flags, PLA pulls A and sets Z and N, PLP pulls all eight flags. Derived: 10_state.md R31, R32,
R33, 42_transfer_stack.md R159, R160, R161, 92_eei_decisions.md D3, D13, D14. Constructors: php, pla, plp. Rests on
the spec's own decisions D3, D13 and D14. -/
def Obligations.FlagPushAndPulls : Prop :=
  ∀ s : State,
    exec .php s = .next { s with
      mem := s.mem.write (stackAddress s.sp).toNat (BitVec.ofNat 8 (s.flags.n.toNat * 128 + s.flags.v.toNat * 64 +
        s.flags.u.toNat * 32 + s.flags.b.toNat * 16 + s.flags.d.toNat * 8 + s.flags.i.toNat * 4 +
        s.flags.z.toNat * 2 + s.flags.c.toNat)),
      sp := s.sp - 1, pc := s.pc + 1, answer := some (.executed 0x08) } ∧
    (let v := busRead s (stackAddress (s.sp + 1))
     exec .pla s = .next { s with
      a := v, sp := s.sp + 1, flags := { s.flags with z := v == 0, n := v.getLsbD 7 }, pc := s.pc + 1,
      answer := some (.executed 0x68) }) ∧
    (let p := busRead s (stackAddress (s.sp + 1))
     exec .plp s = .next { s with
      sp := s.sp + 1, pc := s.pc + 1, answer := some (.executed 0x28),
      flags := { c := p.getLsbD 0, z := p.getLsbD 1, i := p.getLsbD 2, d := p.getLsbD 3, b := p.getLsbD 4,
                 u := p.getLsbD 5, v := p.getLsbD 6, n := p.getLsbD 7 } })

/-- Unpack after Pack gives the flags back, Pack after Unpack the byte; PHP then PLP restores every flag and SP.
Derived: 10_state.md R31, R32, R33, 42_transfer_stack.md R159, R161, 92_eei_decisions.md D3, D14. Rests on the
spec's own decisions D3 and D14 (the bit order). -/
def Obligations.PackAndUnpackAreInverse : Prop :=
  (∀ f : Flags, unpack (pack f) = f) ∧ (∀ p : Byte, pack (unpack p) = p) ∧
  (∀ s : State, ∃ t u : State, exec .php s = .next t ∧ exec .plp t = .next u ∧
    u.flags = s.flags ∧ u.sp = s.sp ∧ u.a = s.a ∧ u.x = s.x ∧ u.y = s.y)

/-- AND, ORA, EOR combine A with the operand and set Z and N from the result. Stated: R165, R166, R167. Constructors:
andImmediate, andZeroPage, andZeroPageX, andAbsolute, andAbsoluteX, andAbsoluteY, andIndexedIndirectX,
andIndirectIndexedY, oraImmediate, oraZeroPage, oraZeroPageX, oraAbsolute, oraAbsoluteX, oraAbsoluteY,
oraIndexedIndirectX, oraIndirectIndexedY, eorImmediate, eorZeroPage, eorZeroPageX, eorAbsolute, eorAbsoluteX,
eorAbsoluteY, eorIndexedIndirectX, eorIndirectIndexedY. -/
def Obligations.LogicalOperationsWriteAccumulator : Prop :=
  ∀ (i : Instr) (s : State),
    (i.mnemonic = .and →
      (i.operand.mode, i.opcode) ∈ ([(.immediate, 0x29), (.zeroPage, 0x25), (.zeroPageX, 0x35), (.absolute, 0x2D),
        (.absoluteX, 0x3D), (.absoluteY, 0x39), (.indexedIndirectX, 0x21),
        (.indirectIndexedY, 0x31)] : List (Mode × Byte)) ∧
      ∃ m : Byte, (resolve i.operand s).operand = some m ∧
        exec i s = .next { s with
          a := s.a &&& m, flags := { s.flags with z := (s.a &&& m) == 0, n := (s.a &&& m).getLsbD 7 },
          pc := s.pc + BitVec.ofNat 16 i.length, answer := some (.executed i.opcode) }) ∧
    (i.mnemonic = .ora →
      (i.operand.mode, i.opcode) ∈ ([(.immediate, 0x09), (.zeroPage, 0x05), (.zeroPageX, 0x15), (.absolute, 0x0D),
        (.absoluteX, 0x1D), (.absoluteY, 0x19), (.indexedIndirectX, 0x01),
        (.indirectIndexedY, 0x11)] : List (Mode × Byte)) ∧
      ∃ m : Byte, (resolve i.operand s).operand = some m ∧
        exec i s = .next { s with
          a := s.a ||| m, flags := { s.flags with z := (s.a ||| m) == 0, n := (s.a ||| m).getLsbD 7 },
          pc := s.pc + BitVec.ofNat 16 i.length, answer := some (.executed i.opcode) }) ∧
    (i.mnemonic = .eor →
      (i.operand.mode, i.opcode) ∈ ([(.immediate, 0x49), (.zeroPage, 0x45), (.zeroPageX, 0x55), (.absolute, 0x4D),
        (.absoluteX, 0x5D), (.absoluteY, 0x59), (.indexedIndirectX, 0x41),
        (.indirectIndexedY, 0x51)] : List (Mode × Byte)) ∧
      ∃ m : Byte, (resolve i.operand s).operand = some m ∧
        exec i s = .next { s with
          a := s.a ^^^ m, flags := { s.flags with z := (s.a ^^^ m) == 0, n := (s.a ^^^ m).getLsbD 7 },
          pc := s.pc + BitVec.ofNat 16 i.length, answer := some (.executed i.opcode) })

/-- BIT sets V, Z and N from A AND operand and writes no register. Stated: R168. Constructors: bitZeroPage, bitAbsolute. -/
def Obligations.BitTestsTheAndOfAccumulatorAndOperand : Prop :=
  ∀ (i : Instr) (s : State), i.mnemonic = .bit →
    (i.operand.mode, i.opcode) ∈ ([(.zeroPage, 0x24), (.absolute, 0x2C)] : List (Mode × Byte)) ∧
      ∃ m : Byte, (resolve i.operand s).operand = some m ∧
        exec i s = .next { s with
          flags := { s.flags with v := (s.a &&& m).getLsbD 6, z := (s.a &&& m) == 0, n := (s.a &&& m).getLsbD 7 },
          pc := s.pc + BitVec.ofNat 16 i.length, answer := some (.executed i.opcode) }

/-- ADC: A, C, V, Z, N from the exact sum A + operand + C; D is not read. Stated: R170. Constructors: adcImmediate,
adcZeroPage, adcZeroPageX, adcAbsolute, adcAbsoluteX, adcAbsoluteY, adcIndexedIndirectX, adcIndirectIndexedY. -/
def Obligations.AdcAddsOperandAndCarry : Prop :=
  ∀ (i : Instr) (s : State), i.mnemonic = .adc →
    (i.operand.mode, i.opcode) ∈ ([(.immediate, 0x69), (.zeroPage, 0x65), (.zeroPageX, 0x75), (.absolute, 0x6D),
      (.absoluteX, 0x7D), (.absoluteY, 0x79), (.indexedIndirectX, 0x61),
      (.indirectIndexedY, 0x71)] : List (Mode × Byte)) ∧
      ∃ m : Byte, (resolve i.operand s).operand = some m ∧
        (let sum := s.a.toNat + m.toNat + s.flags.c.toNat
         exec i s = .next { s with
          a := BitVec.ofNat 8 sum,
          flags := { s.flags with
            c := decide (sum > 0xFF), v := (s.a.getLsbD 7 == m.getLsbD 7) && (s.a.getLsbD 7 != sum.testBit 7),
            z := decide (sum % 256 = 0), n := sum.testBit 7 },
          pc := s.pc + BitVec.ofNat 16 i.length, answer := some (.executed i.opcode) })

/-- SBC: A, C, V, Z, N from the exact sum A + (operand XOR 0xFF) + C. Derived: 44_arithmetic_compare.md R171,
92_eei_decisions.md D19. Constructors: sbcImmediate, sbcZeroPage, sbcZeroPageX, sbcAbsolute, sbcAbsoluteX,
sbcAbsoluteY, sbcIndexedIndirectX, sbcIndirectIndexedY. Rests on the spec's own decision D19 for C. -/
def Obligations.SbcAddsTheComplementAndCarry : Prop :=
  ∀ (i : Instr) (s : State), i.mnemonic = .sbc →
    (i.operand.mode, i.opcode) ∈ ([(.immediate, 0xE9), (.zeroPage, 0xE5), (.zeroPageX, 0xF5), (.absolute, 0xED),
      (.absoluteX, 0xFD), (.absoluteY, 0xF9), (.indexedIndirectX, 0xE1),
      (.indirectIndexedY, 0xF1)] : List (Mode × Byte)) ∧
      ∃ m : Byte, (resolve i.operand s).operand = some m ∧
        (let temp := s.a.toNat + (m ^^^ 0xFF).toNat + s.flags.c.toNat
         exec i s = .next { s with
          a := BitVec.ofNat 8 temp,
          flags := { s.flags with
            c := decide (temp > 0xFF), v := (s.a.getLsbD 7 != m.getLsbD 7) && (s.a.getLsbD 7 != temp.testBit 7),
            z := decide (temp % 256 = 0), n := temp.testBit 7 },
          pc := s.pc + BitVec.ofNat 16 i.length, answer := some (.executed i.opcode) })

/-- V after ADC and SBC is the signed range; SBC computes A - M - (1 - C) and C after is "no borrow". Derived:
44_arithmetic_compare.md R170, R171, 90_conflicts.md C3. -/
def Obligations.OverflowIsTheSignedRangeAndSbcSubtracts : Prop :=
  ∀ (i : Instr) (s : State),
    (i.mnemonic = .adc → ∃ (m : Byte) (t : State), (resolve i.operand s).operand = some m ∧ exec i s = .next t ∧
      (t.flags.v = true ↔
        s.a.toInt + m.toInt + s.flags.c.toNat < -128 ∨ s.a.toInt + m.toInt + s.flags.c.toNat > 127)) ∧
    (i.mnemonic = .sbc → ∃ (m : Byte) (t : State), (resolve i.operand s).operand = some m ∧ exec i s = .next t ∧
      t.a = BitVec.ofInt 8 ((s.a.toNat : Int) - m.toNat - (1 - s.flags.c.toNat)) ∧
      (t.flags.c = true ↔ (m.toNat : Int) + (1 - s.flags.c.toNat) ≤ s.a.toNat) ∧
      (t.flags.v = true ↔ s.a.toInt - m.toInt - (1 - (s.flags.c.toNat : Int)) < -128 ∨
        s.a.toInt - m.toInt - (1 - (s.flags.c.toNat : Int)) > 127))

/-- SBC with carry-in 1 - c from what ADC with carry-in c left gives A back. Derived: 44_arithmetic_compare.md R178,
90_conflicts.md C4. -/
def Obligations.SbcUndoesAdcWithTheComplementedCarry : Prop :=
  ∀ (s : State) (m : Byte), ∃ t : State, exec (.adcImmediate m) s = .next t ∧
    ∀ w : State, w.a = t.a → w.flags.c = !s.flags.c →
      ∃ u : State, exec (.sbcImmediate m) w = .next u ∧ u.a = s.a

/-- CMP, CPX, CPY set C, Z and N from their own register against the operand and write nothing else. Stated: R172, R173,
R174. Constructors: cmpImmediate, cmpZeroPage, cmpZeroPageX, cmpAbsolute, cmpAbsoluteX, cmpAbsoluteY,
cmpIndexedIndirectX, cmpIndirectIndexedY, cpxImmediate, cpxZeroPage, cpxAbsolute, cpyImmediate, cpyZeroPage,
cpyAbsolute. -/
def Obligations.ComparesUseTheirOwnRegister : Prop :=
  ∀ (i : Instr) (s : State),
    (i.mnemonic = .cmp →
      (i.operand.mode, i.opcode) ∈ ([(.immediate, 0xC9), (.zeroPage, 0xC5), (.zeroPageX, 0xD5), (.absolute, 0xCD),
        (.absoluteX, 0xDD), (.absoluteY, 0xD9), (.indexedIndirectX, 0xC1),
        (.indirectIndexedY, 0xD1)] : List (Mode × Byte)) ∧
      ∃ m : Byte, (resolve i.operand s).operand = some m ∧
        exec i s = .next { s with
          flags := { s.flags with
            c := decide (m.toNat ≤ s.a.toNat), z := decide (s.a = m), n := (s.a - m).getLsbD 7 },
          pc := s.pc + BitVec.ofNat 16 i.length, answer := some (.executed i.opcode) }) ∧
    (i.mnemonic = .cpx →
      (i.operand.mode, i.opcode) ∈ ([(.immediate, 0xE0), (.zeroPage, 0xE4),
        (.absolute, 0xEC)] : List (Mode × Byte)) ∧
      ∃ m : Byte, (resolve i.operand s).operand = some m ∧
        exec i s = .next { s with
          flags := { s.flags with
            c := decide (m.toNat ≤ s.x.toNat), z := decide (s.x = m), n := (s.x - m).getLsbD 7 },
          pc := s.pc + BitVec.ofNat 16 i.length, answer := some (.executed i.opcode) }) ∧
    (i.mnemonic = .cpy →
      (i.operand.mode, i.opcode) ∈ ([(.immediate, 0xC0), (.zeroPage, 0xC4),
        (.absolute, 0xCC)] : List (Mode × Byte)) ∧
      ∃ m : Byte, (resolve i.operand s).operand = some m ∧
        exec i s = .next { s with
          flags := { s.flags with
            c := decide (m.toNat ≤ s.y.toNat), z := decide (s.y = m), n := (s.y - m).getLsbD 7 },
          pc := s.pc + BitVec.ofNat 16 i.length, answer := some (.executed i.opcode) })

/-- INC and DEC change the byte at the resolved address by one, modulo 256, and set Z and N; C and V are not written.
Stated: R180, R181. Constructors: incZeroPage, incZeroPageX, incAbsolute, incAbsoluteX, decZeroPage, decZeroPageX,
decAbsolute, decAbsoluteX. -/
def Obligations.IncAndDecWriteMemoryBack : Prop :=
  ∀ (i : Instr) (s : State),
    (i.mnemonic = .inc →
      (i.operand.mode, i.opcode) ∈ ([(.zeroPage, 0xE6), (.zeroPageX, 0xF6), (.absolute, 0xEE),
        (.absoluteX, 0xFE)] : List (Mode × Byte)) ∧
      ∃ p : Addr, (resolve i.operand s).address = some p ∧ (resolve i.operand s).operand = some (busRead s p) ∧
        (let v := busRead s p + 1
         handlerAccesses i s = [.write p v] ∧
         exec i s = .next { s with
          mem := s.mem.write p.toNat v, flags := { s.flags with z := v == 0, n := v.getLsbD 7 },
          pc := s.pc + BitVec.ofNat 16 i.length, answer := some (.executed i.opcode) })) ∧
    (i.mnemonic = .dec →
      (i.operand.mode, i.opcode) ∈ ([(.zeroPage, 0xC6), (.zeroPageX, 0xD6), (.absolute, 0xCE),
        (.absoluteX, 0xDE)] : List (Mode × Byte)) ∧
      ∃ p : Addr, (resolve i.operand s).address = some p ∧ (resolve i.operand s).operand = some (busRead s p) ∧
        (let v := busRead s p - 1
         handlerAccesses i s = [.write p v] ∧
         exec i s = .next { s with
          mem := s.mem.write p.toNat v, flags := { s.flags with z := v == 0, n := v.getLsbD 7 },
          pc := s.pc + BitVec.ofNat 16 i.length, answer := some (.executed i.opcode) }))

/-- INX, INY, DEX, DEY change their register by one, modulo 256, and set Z and N. Stated: R182, R183, R184, R185.
Constructors: inx, iny, dex, dey. -/
def Obligations.IndexIncrementsAndDecrements : Prop :=
  ∀ s : State,
    exec .inx s = .next { s with
      x := s.x + 1, flags := { s.flags with z := (s.x + 1) == 0, n := (s.x + 1).getLsbD 7 },
      pc := s.pc + 1, answer := some (.executed 0xE8) } ∧
    exec .iny s = .next { s with
      y := s.y + 1, flags := { s.flags with z := (s.y + 1) == 0, n := (s.y + 1).getLsbD 7 },
      pc := s.pc + 1, answer := some (.executed 0xC8) } ∧
    exec .dex s = .next { s with
      x := s.x - 1, flags := { s.flags with z := (s.x - 1) == 0, n := (s.x - 1).getLsbD 7 },
      pc := s.pc + 1, answer := some (.executed 0xCA) } ∧
    exec .dey s = .next { s with
      y := s.y - 1, flags := { s.flags with z := (s.y - 1) == 0, n := (s.y - 1).getLsbD 7 },
      pc := s.pc + 1, answer := some (.executed 0x88) } ∧
    (∀ i ∈ [Instr.inx, .iny, .dex, .dey], handlerAccesses i s = [])

/-- ASL A, LSR A, ROL A, ROR A: the result in A, the bit out in C, Z and N from the result, V untouched. Derived:
46_shift_rotate.md R190, R191, R192, R193, R194, 92_eei_decisions.md D8. Constructors: aslAccumulator,
lsrAccumulator, rolAccumulator, rorAccumulator. Rests on the spec's own decision D8. -/
def Obligations.ShiftsAndRotatesOnTheAccumulator : Prop :=
  ∀ s : State,
    (let r : Byte := BitVec.ofNat 8 (2 * s.a.toNat)
     exec .aslAccumulator s = .next { s with
      a := r, flags := { s.flags with c := s.a.getLsbD 7, z := r == 0, n := r.getLsbD 7 }, pc := s.pc + 1,
      answer := some (.executed 0x0A) }) ∧
    (let r : Byte := BitVec.ofNat 8 (s.a.toNat / 2)
     exec .lsrAccumulator s = .next { s with
      a := r, flags := { s.flags with c := s.a.getLsbD 0, z := r == 0, n := r.getLsbD 7 }, pc := s.pc + 1,
      answer := some (.executed 0x4A) }) ∧
    (let r : Byte := BitVec.ofNat 8 (2 * s.a.toNat + s.flags.c.toNat)
     exec .rolAccumulator s = .next { s with
      a := r, flags := { s.flags with c := s.a.getLsbD 7, z := r == 0, n := r.getLsbD 7 }, pc := s.pc + 1,
      answer := some (.executed 0x2A) }) ∧
    (let r : Byte := BitVec.ofNat 8 (s.a.toNat / 2 + 128 * s.flags.c.toNat)
     exec .rorAccumulator s = .next { s with
      a := r, flags := { s.flags with c := s.a.getLsbD 0, z := r == 0, n := r.getLsbD 7 }, pc := s.pc + 1,
      answer := some (.executed 0x6A) })

/-- The memory forms of ASL, LSR, ROL, ROR write the result back to the address the byte came from. Derived:
46_shift_rotate.md R190, R191, R192, R193, R194, 92_eei_decisions.md D8. Constructors: aslZeroPage, aslZeroPageX,
aslAbsolute, aslAbsoluteX, lsrZeroPage, lsrZeroPageX, lsrAbsolute, lsrAbsoluteX, rolZeroPage, rolZeroPageX,
rolAbsolute, rolAbsoluteX, rorZeroPage, rorZeroPageX, rorAbsolute, rorAbsoluteX. Rests on the spec's own decision
D8. -/
def Obligations.ShiftsAndRotatesOnMemory : Prop :=
  ∀ (i : Instr) (s : State),
    (i.mnemonic = .asl →
      (i.operand.mode, i.opcode) ∈ ([(.accumulator, 0x0A), (.zeroPage, 0x06), (.zeroPageX, 0x16),
        (.absolute, 0x0E), (.absoluteX, 0x1E)] : List (Mode × Byte)) ∧
      (i.operand ≠ .accumulator →
        ∃ p : Addr, (resolve i.operand s).address = some p ∧ (resolve i.operand s).operand = some (busRead s p) ∧
          (let v := busRead s p
           let r : Byte := BitVec.ofNat 8 (2 * v.toNat)
           exec i s = .next { s with
            mem := s.mem.write p.toNat r, flags := { s.flags with c := v.getLsbD 7, z := r == 0, n := r.getLsbD 7 },
            pc := s.pc + BitVec.ofNat 16 i.length, answer := some (.executed i.opcode) }))) ∧
    (i.mnemonic = .lsr →
      (i.operand.mode, i.opcode) ∈ ([(.accumulator, 0x4A), (.zeroPage, 0x46), (.zeroPageX, 0x56),
        (.absolute, 0x4E), (.absoluteX, 0x5E)] : List (Mode × Byte)) ∧
      (i.operand ≠ .accumulator →
        ∃ p : Addr, (resolve i.operand s).address = some p ∧ (resolve i.operand s).operand = some (busRead s p) ∧
          (let v := busRead s p
           let r : Byte := BitVec.ofNat 8 (v.toNat / 2)
           exec i s = .next { s with
            mem := s.mem.write p.toNat r, flags := { s.flags with c := v.getLsbD 0, z := r == 0, n := r.getLsbD 7 },
            pc := s.pc + BitVec.ofNat 16 i.length, answer := some (.executed i.opcode) }))) ∧
    (i.mnemonic = .rol →
      (i.operand.mode, i.opcode) ∈ ([(.accumulator, 0x2A), (.zeroPage, 0x26), (.zeroPageX, 0x36),
        (.absolute, 0x2E), (.absoluteX, 0x3E)] : List (Mode × Byte)) ∧
      (i.operand ≠ .accumulator →
        ∃ p : Addr, (resolve i.operand s).address = some p ∧ (resolve i.operand s).operand = some (busRead s p) ∧
          (let v := busRead s p
           let r : Byte := BitVec.ofNat 8 (2 * v.toNat + s.flags.c.toNat)
           exec i s = .next { s with
            mem := s.mem.write p.toNat r, flags := { s.flags with c := v.getLsbD 7, z := r == 0, n := r.getLsbD 7 },
            pc := s.pc + BitVec.ofNat 16 i.length, answer := some (.executed i.opcode) }))) ∧
    (i.mnemonic = .ror →
      (i.operand.mode, i.opcode) ∈ ([(.accumulator, 0x6A), (.zeroPage, 0x66), (.zeroPageX, 0x76),
        (.absolute, 0x6E), (.absoluteX, 0x7E)] : List (Mode × Byte)) ∧
      (i.operand ≠ .accumulator →
        ∃ p : Addr, (resolve i.operand s).address = some p ∧ (resolve i.operand s).operand = some (busRead s p) ∧
          (let v := busRead s p
           let r : Byte := BitVec.ofNat 8 (v.toNat / 2 + 128 * s.flags.c.toNat)
           exec i s = .next { s with
            mem := s.mem.write p.toNat r, flags := { s.flags with c := v.getLsbD 0, z := r == 0, n := r.getLsbD 7 },
            pc := s.pc + BitVec.ofNat 16 i.length, answer := some (.executed i.opcode) })))

/-- JMP sets PC to the resolved address and nothing else; JSR pushes PC + 3, high byte first, and jumps. Derived:
47_jump_branch.md R200, R201, 40_step_and_addressing.md R120, 92_eei_decisions.md D7, D8, D9. Constructors:
jmpAbsolute, jmpIndirect, jsr. Rests on the spec's own decisions D7, D8 and D9. -/
def Obligations.JumpAndCallGoToTheTarget : Prop :=
  ∀ (w : Addr) (s : State),
    exec (.jmpAbsolute w) s = .next { s with pc := w, answer := some (.executed 0x4C) } ∧
    exec (.jmpIndirect w) s = .next { s with
      pc := hiLo (busRead s (w + 1)) (busRead s w), answer := some (.executed 0x6C) } ∧
    exec (.jsr w) s = .next { s with
      mem := (s.mem.write (stackAddress s.sp).toNat (BitVec.ofNat 8 ((s.pc + 3).toNat / 256))).write
        (stackAddress (s.sp - 1)).toNat (BitVec.ofNat 8 (s.pc + 3).toNat),
      sp := s.sp - 2, pc := w, answer := some (.executed 0x20) }

/-- RTS pops the low byte then the high byte into PC and adds nothing. Stated: R202. Constructor: rts. -/
def Obligations.RtsPopsTheReturnAddress : Prop :=
  ∀ s : State,
    exec .rts s = .next { s with
      pc := BitVec.ofNat 16 ((busRead s (stackAddress (s.sp + 2))).toNat * 256 +
        (busRead s (stackAddress (s.sp + 1))).toNat),
      sp := s.sp + 2, answer := some (.executed 0x60) }

/-- JSR followed by RTS resumes at the address of the JSR plus 3. Derived: 47_jump_branch.md R212. -/
def Obligations.JsrThenRtsResumesAfterTheCall : Prop :=
  ∀ (target : Addr) (s t w : State), exec (.jsr target) s = .next t → w.sp = t.sp →
    busRead w (stackAddress s.sp) = busRead t (stackAddress s.sp) →
    busRead w (stackAddress (s.sp - 1)) = busRead t (stackAddress (s.sp - 1)) →
    ∃ u : State, exec .rts w = .next u ∧ u.pc = s.pc + 3 ∧ u.sp = s.sp

/-- Each branch goes to PC + 2 + the signed offset if its flag condition holds, else to PC + 2, modulo 65536. Derived:
47_jump_branch.md R203, R204, R205, R206, R207, R208, R209, R210, R211, 92_eei_decisions.md D6, D24. Constructors:
bcc, bcs, beq, bne, bmi, bpl, bvc, bvs. Rests on the spec's own decisions D6 and D24. -/
def Obligations.BranchesTestOneFlagAndWriteOnlyPc : Prop :=
  ∀ (offset : Byte) (s : State),
    exec (.bcc offset) s = .next { s with
      pc := BitVec.ofInt 16 (s.pc.toNat + 2 + if s.flags.c = false then offset.toInt else 0),
      answer := some (.executed 0x90) } ∧
    exec (.bcs offset) s = .next { s with
      pc := BitVec.ofInt 16 (s.pc.toNat + 2 + if s.flags.c = true then offset.toInt else 0),
      answer := some (.executed 0xB0) } ∧
    exec (.beq offset) s = .next { s with
      pc := BitVec.ofInt 16 (s.pc.toNat + 2 + if s.flags.z = true then offset.toInt else 0),
      answer := some (.executed 0xF0) } ∧
    exec (.bne offset) s = .next { s with
      pc := BitVec.ofInt 16 (s.pc.toNat + 2 + if s.flags.z = false then offset.toInt else 0),
      answer := some (.executed 0xD0) } ∧
    exec (.bmi offset) s = .next { s with
      pc := BitVec.ofInt 16 (s.pc.toNat + 2 + if s.flags.n = true then offset.toInt else 0),
      answer := some (.executed 0x30) } ∧
    exec (.bpl offset) s = .next { s with
      pc := BitVec.ofInt 16 (s.pc.toNat + 2 + if s.flags.n = false then offset.toInt else 0),
      answer := some (.executed 0x10) } ∧
    exec (.bvc offset) s = .next { s with
      pc := BitVec.ofInt 16 (s.pc.toNat + 2 + if s.flags.v = false then offset.toInt else 0),
      answer := some (.executed 0x50) } ∧
    exec (.bvs offset) s = .next { s with
      pc := BitVec.ofInt 16 (s.pc.toNat + 2 + if s.flags.v = true then offset.toInt else 0),
      answer := some (.executed 0x70) }

/-- CLC, SEC, CLI, SEI, CLD, SED, CLV write one flag and advance PC by 1. Derived: 48_flag_nop_system.md R220, R221,
R222, R223, R224, R225, R226, 92_eei_decisions.md D24. Constructors: clc, sec, cli, sei, cld, sed, clv. Rests on the
spec's own decision D24. -/
def Obligations.FlagInstructionsWriteOneFlag : Prop :=
  ∀ s : State,
    exec .clc s = .next { s with
      flags := { s.flags with c := false }, pc := s.pc + 1, answer := some (.executed 0x18) } ∧
    exec .sec s = .next { s with
      flags := { s.flags with c := true }, pc := s.pc + 1, answer := some (.executed 0x38) } ∧
    exec .cli s = .next { s with
      flags := { s.flags with i := false }, pc := s.pc + 1, answer := some (.executed 0x58) } ∧
    exec .sei s = .next { s with
      flags := { s.flags with i := true }, pc := s.pc + 1, answer := some (.executed 0x78) } ∧
    exec .cld s = .next { s with
      flags := { s.flags with d := false }, pc := s.pc + 1, answer := some (.executed 0xD8) } ∧
    exec .sed s = .next { s with
      flags := { s.flags with d := true }, pc := s.pc + 1, answer := some (.executed 0xF8) } ∧
    exec .clv s = .next { s with
      flags := { s.flags with v := false }, pc := s.pc + 1, answer := some (.executed 0xB8) }

/-- NOP changes nothing, advances PC by 1 and returns 0xEA. Stated: R227. Constructor: nop. -/
def Obligations.NopOnlyAdvancesPc : Prop :=
  ∀ s : State, exec .nop s = .next { s with pc := s.pc + 1, answer := some (.executed 0xEA) } ∧
    StepResult.code (.executed 0xEA) = 0x00EA ∧ Instr.nop.operand = .implied ∧ handlerAccesses .nop s = []

/-- Each flag is written only by the instructions the spec lists for it. Derived: 10_state.md R28, R29. -/
def Obligations.OnlyTheListedInstructionsWriteEachFlag : Prop :=
  ∀ (i : Instr) (s t : State), exec i s = .next t →
    (t.flags.c ≠ s.flags.c → i.mnemonic ∈
        [Mnemonic.adc, .sbc, .cmp, .cpx, .cpy, .asl, .lsr, .rol, .ror, .clc, .sec, .plp]) ∧
    (t.flags.z ≠ s.flags.z → i.mnemonic ∈
        [Mnemonic.lda, .ldx, .ldy, .tax, .tay, .txa, .tya, .tsx, .txs, .pla, .and, .ora, .eor, .bit, .adc, .sbc,
          .cmp, .cpx, .cpy, .inc, .dec, .inx, .iny, .dex, .dey, .asl, .lsr, .rol, .ror, .plp]) ∧
    (t.flags.n ≠ s.flags.n → i.mnemonic ∈
        [Mnemonic.lda, .ldx, .ldy, .tax, .tay, .txa, .tya, .tsx, .txs, .pla, .and, .ora, .eor, .bit, .adc, .sbc,
          .cmp, .cpx, .cpy, .inc, .dec, .inx, .iny, .dex, .dey, .asl, .lsr, .rol, .ror, .plp]) ∧
    (t.flags.v ≠ s.flags.v → i.mnemonic ∈
        [Mnemonic.adc, .sbc, .bit, .clv, .plp]) ∧
    (t.flags.i ≠ s.flags.i → i.mnemonic ∈
        [Mnemonic.sei, .cli, .plp]) ∧
    (t.flags.d ≠ s.flags.d → i.mnemonic ∈
        [Mnemonic.sed, .cld, .plp]) ∧
    (t.flags.b ≠ s.flags.b → i.mnemonic ∈
        [Mnemonic.plp]) ∧
    (t.flags.u ≠ s.flags.u → i.mnemonic ∈
        [Mnemonic.plp])

/-- A, X, Y and SP are written only by the instructions the spec lists for them. Derived: 10_state.md R23. -/
def Obligations.OnlyTheListedInstructionsWriteEachRegister : Prop :=
  ∀ (i : Instr) (s t : State), exec i s = .next t →
    (t.a ≠ s.a → i.operand = .accumulator ∨ i.mnemonic ∈
        [Mnemonic.lda, .txa, .tya, .pla, .and, .ora, .eor, .adc, .sbc]) ∧
    (t.x ≠ s.x → i.mnemonic ∈
        [Mnemonic.ldx, .tax, .tsx, .inx, .dex]) ∧
    (t.y ≠ s.y → i.mnemonic ∈
        [Mnemonic.ldy, .tay, .iny, .dey]) ∧
    (t.sp ≠ s.sp → i.mnemonic ∈
        [Mnemonic.txs, .pha, .php, .pla, .plp, .jsr, .rts])

/-- A form that stores nothing leaves every byte of memory as it was. Derived: 20_memory.md R59. -/
def Obligations.FormsThatStoreNothingLeaveMemory : Prop :=
  ∀ (i : Instr) (s t : State) (q : Addr), exec i s = .next t →
    (i.operand = .accumulator ∨ i.mnemonic ∉
        [Mnemonic.sta, .stx, .sty, .inc, .dec, .asl, .lsr, .rol, .ror, .pha, .php, .jsr]) →
    busRead t q = busRead s q

/-- A storing form changes memory only at its resolved address, and no register but PC. Derived: 20_memory.md R59,
41_load_store.md R143, R144, R145, 45_incdec.md R180, R181, 46_shift_rotate.md R190. -/
def Obligations.MemoryFormsStoreOnlyAtTheirAddress : Prop :=
  ∀ (i : Instr) (m : MemOperand) (s t : State) (q : Addr), exec i s = .next t → i.operand = .memory m →
    i.mnemonic ∈ [Mnemonic.sta, .stx, .sty, .inc, .dec, .asl, .lsr, .rol, .ror] →
    (q ≠ effectiveAddress m s → busRead t q = busRead s q) ∧
    t.a = s.a ∧ t.x = s.x ∧ t.y = s.y ∧ t.sp = s.sp ∧ t.flags.v = s.flags.v ∧ t.flags.i = s.flags.i ∧
    t.flags.d = s.flags.d ∧ t.flags.b = s.flags.b ∧ t.flags.u = s.flags.u ∧
    (i.mnemonic = .sta → busRead t (effectiveAddress m s) = s.a) ∧
    (i.mnemonic = .stx → busRead t (effectiveAddress m s) = s.x) ∧
    (i.mnemonic = .sty → busRead t (effectiveAddress m s) = s.y) ∧
    (i.mnemonic ∈ [Mnemonic.sta, .stx, .sty] → t.flags = s.flags) ∧
    (i.mnemonic ∈ [Mnemonic.inc, .dec] → t.flags.c = s.flags.c)

/-- PHA, PHP and JSR change memory only at their stack slots, inside 0x0100 to 0x01FF. Derived: 10_state.md R21,
20_memory.md R65, 42_transfer_stack.md R150. -/
def Obligations.StackStoresStayOnTheStackPage : Prop :=
  ∀ (i : Instr) (s t : State) (q : Addr), exec i s = .next t → i.mnemonic ∈ [Mnemonic.pha, .php, .jsr] →
    (q ≠ stackAddress s.sp → (i.mnemonic = .jsr → q ≠ stackAddress (s.sp - 1)) → busRead t q = busRead s q) ∧
    (q.toNat < 0x0100 ∨ 0x01FF < q.toNat → busRead t q = busRead s q) ∧
    t.a = s.a ∧ t.x = s.x ∧ t.y = s.y ∧ t.flags = s.flags

/-- I, D, B and U influence no instruction but PHP. Derived: 10_state.md R28, R29, 44_arithmetic_compare.md R177,
60_exceptions.md R244. -/
def Obligations.StorageFlagsInfluenceNothingButPhp : Prop :=
  ∀ (i : Instr) (s : State) (f : Flags), i.mnemonic ≠ .php →
    ∃ t t' : State, exec i s = .next t ∧
      exec i { s with flags := { s.flags with i := f.i, d := f.d, b := f.b, u := f.u } } = .next t' ∧
      t'.a = t.a ∧ t'.x = t.x ∧ t'.y = t.y ∧ t'.sp = t.sp ∧ t'.pc = t.pc ∧ t'.mem = t.mem ∧ t'.answer = t.answer ∧
      t'.flags.c = t.flags.c ∧ t'.flags.z = t.flags.z ∧ t'.flags.v = t.flags.v ∧ t'.flags.n = t.flags.n

/-- Every memory mode reads the byte at its address, for stores and jumps too; Indirect does not. Derived: 20_memory.md
R60, R62, 40_step_and_addressing.md R120, 92_eei_decisions.md D8, D9, D17. The order and the JMP pointer rest on the
spec's own decisions D17, D8 and D9 (log entries 5 and 8). -/
def Obligations.MemoryModesReadTheirOperand : Prop :=
  ∀ (s : State),
    (∀ m : MemOperand, (fetchInstr s).operand = .memory m → (fetchInstr s).mnemonic.rejected = false →
      BusAccess.read (effectiveAddress m s) ∈ stepAccesses s ∧
      (resolve (fetchInstr s).operand s).operand = some (busRead s (effectiveAddress m s))) ∧
    (∀ w : Addr, fetchInstr s = .jmpIndirect w →
      stepAccesses s = [.read s.pc, .read (s.pc + 1), .read (s.pc + 2), .read w, .read (w + 1)])

/-- The memory after a step is the memory before with the writes of the step's bus accesses applied in order. Derived:
20_memory.md R59, R61, R62, R69, 92_eei_decisions.md D17. The access order among the resolver's reads rests on the
spec's own decision D17. -/
def Obligations.MemoryChangesByTheStepsBusWrites : Prop :=
  ∀ s t : State, step s = .next t → t.mem = applyWrites (stepAccesses s) s.mem

/-- A byte stored where the next step fetches is the opcode it runs. Derived: 20_memory.md R72, 70_reset_and_hazards.md
R275. -/
def Obligations.StoresIntoCodeAreFetched : Prop :=
  ∀ (i : Instr) (m : MemOperand) (s t : State), i.mnemonic = .sta → i.operand = .memory m → exec i s = .next t →
    t.pc = effectiveAddress m s → (fetchInstr t).opcode = s.a

/-- What power-on initialisation and the reset request leave, and the two bus reads of reset. Derived: 00_scope.md R7,
10_state.md R40, 70_reset_and_hazards.md R260, R261, R262, R263, R265, R271, 92_eei_decisions.md D15, D16. Rests on
the spec's own decisions D15 and D16. The answer field is the model's (log entry 2). -/
def Obligations.PowerOnAndResetStates : Prop :=
  ∀ s : State, serve .init s = .next (.none, State.reset) ∧
    State.reset.a = 0 ∧ State.reset.x = 0 ∧ State.reset.y = 0 ∧ State.reset.sp = 0xFF ∧ State.reset.pc = 0x8000 ∧
    pack State.reset.flags = 0 ∧
    (∀ p : Addr, busRead State.reset p = if p = 0xFFFD then 0x80 else 0x00) ∧
    step State.reset = .next { State.reset with answer := some .invalid } ∧
    serve .reset s = .next (.none, { s with
      a := 0, x := 0, y := 0, sp := 0xFF, pc := hiLo (busRead s 0xFFFD) (busRead s 0xFFFC) }) ∧
    requestAccesses .reset s = [.read 0xFFFC, .read 0xFFFD] ∧
    (∀ (β : Type) (bus : BusOps β) (created b : β),
      (requestProgram .reset (registers s)).callsOn bus b = [.read 0xFFFC, .read 0xFFFD] ∧
      (let low := bus.read 0xFFFC b
       let high := bus.read 0xFFFD low.2
       serveOn bus created .reset (registers s) b =
        ((.none, { registers s with a := 0, x := 0, y := 0, sp := 0xFF, pc := hiLo high.1 low.1 }), high.2)))

/-- load of at most 32762 bytes writes the image at 0x8000 and the vector, and nothing else; a longer one writes
nothing. Derived: 70_reset_and_hazards.md R266, R267, 92_eei_decisions.md D22. That load leaves the registers, the
flags and every other byte alone rests on the spec's own decision D22 (log entry 5). -/
def Obligations.LoadWritesTheImageAndTheVectorOrNothing : Prop :=
  ∀ (image : List Byte) (s : State),
    (image.length ≤ 32762 → ∃ t : State, serve (.load image) s = .next (.loaded .ok, t) ∧
      (∀ k b, image[k]? = some b → busRead t (0x8000 + BitVec.ofNat 16 k) = b) ∧
      busRead t 0xFFFC = 0x00 ∧ busRead t 0xFFFD = 0x80 ∧
      (∀ p : Addr, (p.toNat < 0x8000 ∨ 0x8000 + image.length ≤ p.toNat) → p ≠ 0xFFFC → p ≠ 0xFFFD →
        busRead t p = busRead s p) ∧
      t.a = s.a ∧ t.x = s.x ∧ t.y = s.y ∧ t.sp = s.sp ∧ t.pc = s.pc ∧ t.flags = s.flags) ∧
    (32762 < image.length → serve (.load image) s = .next (.loaded .sizeError, s))

/-- init, load, reset: the first instruction fetched is the one whose opcode is the first byte of the image. Derived:
70_reset_and_hazards.md R269. -/
def Obligations.BootSequenceReachesTheImage : Prop :=
  ∀ (first : Byte) (more : List Byte) (s : State), more.length < 32762 →
    (let t := resetRequest (loadRequest (first :: more) (initRequest s))
     t.a = 0 ∧ t.x = 0 ∧ t.y = 0 ∧ t.sp = 0xFF ∧ t.pc = 0x8000 ∧ t.flags = Flags.allClear ∧
     (fetchInstr t).opcode = first)

/-- The run loop ends at the first rejected step, with the count of executed instructions and that state, or at its
bound. Derived: 60_exceptions.md R240, R241, 70_reset_and_hazards.md R272, R279, 92_eei_decisions.md D21. That a run
ends at the first sentinel rests on the spec's own decision D21 (log entry 5). The answer field is the model's (log
entry 2). -/
def Obligations.RunLoopEndsAtTheFirstRejectedStep : Prop :=
  ∀ s : State, ∃ run : Nat → State, run 0 = s ∧ (∀ j, step (run j) = .next (run (j + 1))) ∧
    ∀ n k : Nat,
      (∀ (e : Nat) (t : State), runLoop n k s = .next (.rejected e t) ↔
        ∃ j < n, e = k + j ∧ (∀ i < j, (fetchInstr (run i)).mnemonic.rejected = false) ∧
          (fetchInstr (run j)).mnemonic.rejected = true ∧ t = { run j with answer := some .invalid }) ∧
      (∀ t : State, runLoop n k s = .next (.bound t) ↔
        (∀ i < n, (fetchInstr (run i)).mnemonic.rejected = false) ∧ t = run n) ∧
      (SafeFor n s ↔ ∀ i < n, (fetchInstr (run i)).mnemonic.rejected = false)
end

