-- ==== Sys2Proof/Laws/Decode.lean ====
section
/-! SUPPORT. The bytes of a word, and what the list decoder does once the length of the opcode is known. -/

namespace Sys2Proof

@[simp] theorem lowByte_hiLo (hi lo : Byte) : lowByte (hiLo hi lo) = lo := by
  ext i h
  simp only [lowByte, hiLo, BitVec.getElem_extractLsb', BitVec.getLsbD_append, Nat.zero_add, h, if_true]
  exact BitVec.getLsbD_eq_getElem h

@[simp] theorem highByte_hiLo (hi lo : Byte) : highByte (hiLo hi lo) = hi := by
  ext i h
  have h8 : ¬ 8 + i < 8 := by omega
  simp only [highByte, hiLo, BitVec.getElem_extractLsb', BitVec.getLsbD_append, h8, if_false,
    Nat.add_sub_cancel_left]
  exact BitVec.getLsbD_eq_getElem h

@[simp] theorem hiLo_highByte_lowByte (w : Addr) : hiLo (highByte w) (lowByte w) = w := by
  apply BitVec.eq_of_getLsbD_eq
  intro i h
  rw [hiLo, BitVec.getLsbD_append, highByte, lowByte]
  by_cases h8 : i < 8
  · simp [h8]
  · have h1 : i - 8 < 8 := by omega
    have h2 : 8 + (i - 8) = i := by omega
    simp [h8, h1, h2]

/-- The number whose bytes are `hi` and `lo`. -/
theorem toNat_hiLo (hi lo : Byte) : (hiLo hi lo).toNat = hi.toNat * 256 + lo.toNat := by
  have := lo.isLt
  rw [hiLo, BitVec.toNat_append, Nat.shiftLeft_eq, ← Nat.shiftLeft_eq, ← Nat.shiftLeft_add_eq_or_of_lt this,
    Nat.shiftLeft_eq]

/-! The list decoder, for each length. -/

theorem decode_one {op : Byte} (h : opcodeLength op = 1) (rest : List Byte) :
    decode (op :: rest) = .ok (decodeInstr op 0 0, rest) := by
  simp only [decode, h]

theorem decode_two {op : Byte} (h : opcodeLength op = 2) (b1 : Byte) (rest : List Byte) :
    decode (op :: b1 :: rest) = .ok (decodeInstr op b1 0, rest) := by
  simp only [decode, h]

theorem decode_three {op : Byte} (h : opcodeLength op = 3) (b1 b2 : Byte) (rest : List Byte) :
    decode (op :: b1 :: b2 :: rest) = .ok (decodeInstr op b1 b2, rest) := by
  simp only [decode, h]

end Sys2Proof
end

