-- ==== Sys2Proof/Laws/Memory.lean ====
section
/-! SUPPORT. What every memory operation does: what is read after it, and that it keeps the canonical form. The read laws
need no canonical form. -/

namespace Sys2Proof.Machine

theorem Memory.read_erase (m : Memory) (a b : Nat) :
    (m.erase a).read b = if b = a then unlistedByte b else m.read b := by
  induction m with
  | nil => simp [Memory.erase, Memory.read]
  | cons p rest ih =>
    obtain ⟨k, w⟩ := p
    by_cases hk : k = a
    · simp only [Memory.erase, hk, if_true, ih, Memory.read]
      by_cases hb : b = a
      · simp [hb]
      · simp [hb, Ne.symm hb]
    · simp only [Memory.erase, hk, if_false, Memory.read, ih]
      by_cases hkb : k = b
      · subst hkb; simp [hk]
      · simp [hkb]

theorem Memory.read_insert (m : Memory) (a : Nat) (v : Byte) (b : Nat) :
    (m.insert a v).read b = if b = a then v else m.read b := by
  induction m with
  | nil =>
    by_cases hb : b = a
    · simp [Memory.insert, Memory.read, hb]
    · simp [Memory.insert, Memory.read, hb, Ne.symm hb]
  | cons p rest ih =>
    obtain ⟨k, w⟩ := p
    by_cases hb : b = a
    · subst hb
      simp only [Memory.insert]
      split
      · simp [Memory.read]
      · split
        · simp [Memory.read]
        · rename_i hne
          simp [Memory.read, Ne.symm hne, ih]
    · simp only [Memory.insert]
      split
      · simp [Memory.read, Ne.symm hb]
      · split
        · rename_i hak
          subst hak
          simp [Memory.read, Ne.symm hb]
        · simp only [Memory.read, ih, hb, if_false]

/-- A read after a write: the byte written at its address, what was there before everywhere else. -/
theorem Memory.read_write (m : Memory) (a : Nat) (v : Byte) (b : Nat) :
    (m.write a v).read b = if b = a then v else m.read b := by
  unfold Memory.write
  split
  · rename_i hv
    rw [Memory.read_erase]
    by_cases hb : b = a
    · simp [hb, hv]
    · simp [hb]
  · exact Memory.read_insert m a v b

theorem Memory.mem_of_mem_erase {m : Memory} {a : Nat} {p : Host.Cell} (h : p ∈ m.erase a) : p ∈ m := by
  induction m with
  | nil => simp [Memory.erase] at h
  | cons q rest ih =>
    obtain ⟨k, w⟩ := q
    simp only [Memory.erase] at h
    split at h
    · exact List.mem_cons_of_mem _ (ih h)
    · rcases List.mem_cons.mp h with h | h
      · exact h ▸ List.mem_cons_self
      · exact List.mem_cons_of_mem _ (ih h)

theorem Memory.mem_of_mem_insert {m : Memory} {a : Nat} {v : Byte} {p : Host.Cell} (h : p ∈ m.insert a v) :
    p = (a, v) ∨ p ∈ m := by
  induction m with
  | nil => exact .inl (by simpa [Memory.insert] using h)
  | cons q rest ih =>
    obtain ⟨k, w⟩ := q
    simp only [Memory.insert] at h
    split at h
    · exact List.mem_cons.mp h
    · split at h
      · rcases List.mem_cons.mp h with h | h
        · exact .inl h
        · exact .inr (List.mem_cons_of_mem _ h)
      · rcases List.mem_cons.mp h with h | h
        · exact .inr (h ▸ List.mem_cons_self)
        · exact (ih h).imp_right (List.mem_cons_of_mem _)

theorem Memory.wf_tail {p : Host.Cell} {rest : Memory} (h : Memory.wf (p :: rest)) : Memory.wf rest :=
  ⟨(List.pairwise_cons.mp h.1).2, fun q hq => h.2 q (List.mem_cons_of_mem _ hq)⟩

theorem Memory.wf_erase {m : Memory} (h : m.wf) (a : Nat) : (m.erase a).wf := by
  refine ⟨?_, fun p hp => h.2 p (Memory.mem_of_mem_erase hp)⟩
  induction m with
  | nil => simp [Memory.erase]
  | cons q rest ih =>
    obtain ⟨k, w⟩ := q
    have ht := ih (Memory.wf_tail h)
    simp only [Memory.erase]
    split
    · exact ht
    · exact List.pairwise_cons.mpr
        ⟨fun p hp => (List.pairwise_cons.mp h.1).1 p (Memory.mem_of_mem_erase hp), ht⟩

theorem Memory.wf_insert {m : Memory} (h : m.wf) {a : Nat} (ha : a < Config.memSize) {v : Byte}
    (hv : v ≠ unlistedByte a) : (m.insert a v).wf := by
  refine ⟨?_, fun p hp => ?_⟩
  · induction m with
    | nil => simp [Memory.insert]
    | cons q rest ih =>
      obtain ⟨k, w⟩ := q
      obtain ⟨hk, hrest⟩ := List.pairwise_cons.mp h.1
      simp only [Memory.insert]
      split
      · rename_i hak
        refine List.pairwise_cons.mpr ⟨fun p hp => ?_, h.1⟩
        rcases List.mem_cons.mp hp with rfl | hp
        · exact hak
        · exact Nat.lt_trans hak (hk p hp)
      · split
        · rename_i hak
          subst hak
          exact List.pairwise_cons.mpr ⟨hk, hrest⟩
        · refine List.pairwise_cons.mpr ⟨fun p hp => ?_, ih (Memory.wf_tail h)⟩
          rcases Memory.mem_of_mem_insert hp with rfl | hp
          · show k < a
            omega
          · exact hk p hp
  · rcases Memory.mem_of_mem_insert hp with rfl | hp
    · exact ⟨ha, hv⟩
    · exact h.2 p hp

/-- A write to an address of the space keeps the canonical form. -/
theorem Memory.wf_write {m : Memory} (h : m.wf) {a : Nat} (ha : a < Config.memSize) (v : Byte) :
    (m.write a v).wf := by
  unfold Memory.write
  split
  · exact Memory.wf_erase h a
  · exact Memory.wf_insert h ha ‹_›

/-- Below every listed address nothing is listed. -/
theorem Memory.read_of_lt_all {m : Memory} {a : Nat} (h : ∀ p ∈ m, a < p.1) : m.read a = unlistedByte a := by
  induction m with
  | nil => rfl
  | cons q rest ih =>
    obtain ⟨k, w⟩ := q
    have hk : a < k := h (k, w) List.mem_cons_self
    rw [Memory.read, if_neg (by omega)]
    exact ih (fun p hp => h p (List.mem_cons_of_mem _ hp))

/-- What the canonical form is for: memories that read alike everywhere are equal. -/
theorem Memory.eq_of_read_eq {m n : Memory} (hm : m.wf) (hn : n.wf) (h : ∀ a, m.read a = n.read a) : m = n := by
  induction m generalizing n with
  | nil =>
    cases n with
    | nil => rfl
    | cons q rest =>
      obtain ⟨k, w⟩ := q
      have hk := h k
      rw [Memory.read, Memory.read, if_pos rfl] at hk
      exact absurd hk.symm (hn.2 (k, w) List.mem_cons_self).2
  | cons p rest ih =>
    obtain ⟨k, w⟩ := p
    have hw : w ≠ unlistedByte k := (hm.2 (k, w) List.mem_cons_self).2
    have hbelow : ∀ r ∈ rest, k < r.1 := (List.pairwise_cons.mp hm.1).1
    cases n with
    | nil =>
      have hk := h k
      rw [Memory.read, Memory.read, if_pos rfl] at hk
      exact absurd hk hw
    | cons q rest' =>
      obtain ⟨k', w'⟩ := q
      have hw' : w' ≠ unlistedByte k' := (hn.2 (k', w') List.mem_cons_self).2
      have hbelow' : ∀ r ∈ rest', k' < r.1 := (List.pairwise_cons.mp hn.1).1
      rcases Nat.lt_trichotomy k k' with hlt | heq | hgt
      · have hk := h k
        rw [Memory.read, if_pos rfl, Memory.read_of_lt_all (m := (k', w') :: rest')] at hk
        · exact absurd hk hw
        · intro r hr
          rcases List.mem_cons.mp hr with rfl | hr
          · exact hlt
          · exact Nat.lt_trans hlt (hbelow' r hr)
      · subst heq
        have hk := h k
        rw [Memory.read, if_pos rfl, Memory.read, if_pos rfl] at hk
        subst hk
        congr 1
        refine ih (Memory.wf_tail hm) (Memory.wf_tail hn) (fun a => ?_)
        by_cases ha : k = a
        · subst ha
          rw [Memory.read_of_lt_all hbelow, Memory.read_of_lt_all hbelow']
        · have hr := h a
          rwa [Memory.read, if_neg ha, Memory.read, if_neg ha] at hr
      · have hk := h k'
        rw [Memory.read_of_lt_all (m := (k, w) :: rest), Memory.read, if_pos rfl] at hk
        · exact absurd hk.symm hw'
        · intro r hr
          rcases List.mem_cons.mp hr with rfl | hr
          · exact hgt
          · exact Nat.lt_trans hgt (hbelow r hr)

/-- A bus read after a bus write. -/
theorem busRead_busWrite (s : State) (a : Addr) (v : Byte) (b : Addr) :
    busRead (busWrite s a v) b = if b = a then v else busRead s b := by
  simp only [busRead, busWrite, State.setMem_mem, Memory.read_write, BitVec.toNat_inj]

/-- A bus write keeps the canonical form. -/
theorem busWrite_keeps_wf {s : State} (h : s.mem.wf) (a : Addr) (v : Byte) : (busWrite s a v).mem.wf :=
  Memory.wf_write h a.isLt v

end Sys2Proof.Machine
end

