-- ==== Sys2Proof/Laws/Ops.lean ====
section
/-! SUPPORT. What the shared operations of Machine/Ops.lean and the step do, field by field. -/

namespace Sys2Proof.Machine

variable (s : State)

/-! A bus write changes memory alone. -/

@[simp] theorem busWrite_a (p : Addr) (v : Byte) : (busWrite s p v).a = s.a := rfl
@[simp] theorem busWrite_x (p : Addr) (v : Byte) : (busWrite s p v).x = s.x := rfl
@[simp] theorem busWrite_y (p : Addr) (v : Byte) : (busWrite s p v).y = s.y := rfl
@[simp] theorem busWrite_sp (p : Addr) (v : Byte) : (busWrite s p v).sp = s.sp := rfl
@[simp] theorem busWrite_pc (p : Addr) (v : Byte) : (busWrite s p v).pc = s.pc := rfl
@[simp] theorem busWrite_flags (p : Addr) (v : Byte) : (busWrite s p v).flags = s.flags := rfl
@[simp] theorem busWrite_answer (p : Addr) (v : Byte) : (busWrite s p v).answer = s.answer := rfl
@[simp] theorem busWrite_mem (p : Addr) (v : Byte) : (busWrite s p v).mem = s.mem.write p.toNat v := rfl

/-! A bus read looks at memory alone. -/

theorem busRead_congr {s t : State} (h : s.mem = t.mem) (p : Addr) : busRead s p = busRead t p := by
  unfold busRead; rw [h]

/-! Push and pop. -/

@[simp] theorem push_a (v : Byte) : (push s v).a = s.a := rfl
@[simp] theorem push_x (v : Byte) : (push s v).x = s.x := rfl
@[simp] theorem push_y (v : Byte) : (push s v).y = s.y := rfl
@[simp] theorem push_sp (v : Byte) : (push s v).sp = s.sp - 1 := rfl
@[simp] theorem push_pc (v : Byte) : (push s v).pc = s.pc := rfl
@[simp] theorem push_flags (v : Byte) : (push s v).flags = s.flags := rfl
@[simp] theorem push_answer (v : Byte) : (push s v).answer = s.answer := rfl
@[simp] theorem push_mem (v : Byte) : (push s v).mem = s.mem.write (stackAddress s.sp).toNat v := rfl

/-- What is read after a push: the byte at the stack address, everything else as before. -/
theorem busRead_push (v : Byte) (p : Addr) :
    busRead (push s v) p = if p = stackAddress s.sp then v else busRead s p :=
  busRead_busWrite s (stackAddress s.sp) v p

theorem push_keeps_wf {s : State} (h : s.mem.wf) (v : Byte) : (push s v).mem.wf :=
  busWrite_keeps_wf h (stackAddress s.sp) v

@[simp] theorem popped_a : (popped s).a = s.a := rfl
@[simp] theorem popped_x : (popped s).x = s.x := rfl
@[simp] theorem popped_y : (popped s).y = s.y := rfl
@[simp] theorem popped_sp : (popped s).sp = s.sp + 1 := rfl
@[simp] theorem popped_pc : (popped s).pc = s.pc := rfl
@[simp] theorem popped_flags : (popped s).flags = s.flags := rfl
@[simp] theorem popped_mem : (popped s).mem = s.mem := rfl
@[simp] theorem popped_answer : (popped s).answer = s.answer := rfl

/-- Two stack addresses are equal only for equal stack pointers. -/
theorem stackAddress_inj {p q : Byte} (h : stackAddress p = stackAddress q) : p = q := by
  have h8 := congrArg lowByte h
  have low (b : Byte) : lowByte (stackAddress b) = b := by
    simp only [lowByte, stackAddress, hiLo]
    ext i hi
    simp only [BitVec.getElem_extractLsb', BitVec.getLsbD_append, Nat.zero_add]
    simp [hi]
  rwa [low, low] at h8

/-! How an instruction ends: always in a next state. -/

theorem completeManaged_eq (i : Instr) (t : State) :
    completeManaged i t = .next (t.setAnswer (some (.executed i.opcode))) := rfl

theorem complete_eq (i : Instr) (t : State) :
    complete i t = .next ((t.setPc (t.pc + BitVec.ofNat 16 i.length)).setAnswer (some (.executed i.opcode))) := rfl

theorem raiseInvalidInstruction_eq : raiseInvalidInstruction s = .next (s.setAnswer (some .invalid)) := rfl

/-- One step runs the meaning of the instruction fetched. -/
theorem step_eq_exec : step s = exec (fetchInstr s) s := rfl

/-! Storing bytes at consecutive addresses changes memory alone and keeps its canonical form. -/

theorem storeBytes_frame (bytes : List Byte) (s : State) (p : Addr) :
    (storeBytes s p bytes).a = s.a ∧ (storeBytes s p bytes).x = s.x ∧ (storeBytes s p bytes).y = s.y ∧
    (storeBytes s p bytes).sp = s.sp ∧ (storeBytes s p bytes).pc = s.pc ∧
    (storeBytes s p bytes).flags = s.flags ∧ (storeBytes s p bytes).answer = s.answer := by
  induction bytes generalizing s p with
  | nil => exact ⟨rfl, rfl, rfl, rfl, rfl, rfl, rfl⟩
  | cons b rest ih => exact ih (busWrite s p b) (p + 1)

/-- What is read after storing bytes that do not run past the top of the space. -/
theorem busRead_storeBytes (bytes : List Byte) (s : State) (p q : Addr) (h : p.toNat + bytes.length ≤ 65536) :
    busRead (storeBytes s p bytes) q =
      if p.toNat ≤ q.toNat then (bytes[q.toNat - p.toNat]?).getD (busRead s q) else busRead s q := by
  induction bytes generalizing s p with
  | nil => simp [storeBytes]
  | cons b rest ih =>
    rw [List.length_cons] at h
    rw [storeBytes]
    by_cases hq : q = p
    · subst hq
      by_cases hr : rest = []
      · subst hr
        simp [storeBytes, busRead_busWrite]
      · have hl : 0 < rest.length := List.length_pos_iff.mpr hr
        have h1 : (q + 1).toNat = q.toNat + 1 := by
          rw [BitVec.toNat_add, show (1 : Addr).toNat = 1 from rfl]
          omega
        rw [ih _ _ (by omega), if_neg (by omega), busRead_busWrite]
        simp
    · have hne : q.toNat ≠ p.toNat := fun e => hq (BitVec.eq_of_toNat_eq e)
      by_cases hr : rest = []
      · subst hr
        rw [storeBytes, busRead_busWrite, if_neg hq]
        by_cases hpq : p.toNat ≤ q.toNat
        · have hlen : ([b] : List Byte).length ≤ q.toNat - p.toNat := by simp only [List.length_singleton]; omega
          rw [if_pos hpq, List.getElem?_eq_none hlen, Option.getD_none]
        · rw [if_neg hpq]
      · have hl : 0 < rest.length := List.length_pos_iff.mpr hr
        have h1 : (p + 1).toNat = p.toNat + 1 := by
          rw [BitVec.toNat_add, show (1 : Addr).toNat = 1 from rfl]
          omega
        rw [ih _ _ (by omega), busRead_busWrite, if_neg hq, h1]
        by_cases hpq : p.toNat ≤ q.toNat
        · have hs : q.toNat - p.toNat = q.toNat - (p.toNat + 1) + 1 := by omega
          rw [if_pos (by omega), if_pos hpq, hs, List.getElem?_cons_succ]
        · rw [if_neg (by omega), if_neg hpq]

theorem storeBytes_keeps_wf (bytes : List Byte) {s : State} (h : s.mem.wf) (p : Addr) :
    (storeBytes s p bytes).mem.wf := by
  induction bytes generalizing s p with
  | nil => exact h
  | cons b rest ih => exact ih (busWrite_keeps_wf h p b) (p + 1)

end Sys2Proof.Machine
end

