-- ==== Sys2Proof/Laws/Families.lean ====
section
/-! SUPPORT. The operations the families share, each written out once as a record update, and that every meaning answers a
next state. -/

namespace Sys2Proof.Machine

variable (s : State)

theorem loadA_eq (v : Byte) : loadA v s = { s with a := v, flags := setZN v s.flags } := rfl
theorem loadX_eq (v : Byte) : loadX v s = { s with x := v, flags := setZN v s.flags } := rfl
theorem loadY_eq (v : Byte) : loadY v s = { s with y := v, flags := setZN v s.flags } := rfl

theorem addToA_eq (m : Byte) :
    addToA m s = { s with a := addResult s.a m s.flags.c, flags := addFlags s.a m s.flags } := rfl

theorem storeAndFlag_eq (p : Addr) (v : Byte) :
    storeAndFlag p v s = { s with mem := s.mem.write p.toNat v, flags := setZN v s.flags } := rfl

theorem shiftedToA_eq (r : Shifted) : shiftedToA r s = { s with a := r.result, flags := shiftFlags r s.flags } := rfl

theorem shiftedToMemory_eq (p : Addr) (r : Shifted) :
    shiftedToMemory p r s = { s with mem := s.mem.write p.toNat r.result, flags := shiftFlags r s.flags } := rfl

theorem branch_eq (taken : Bool) (offset : Byte) :
    branch taken offset s = { s with pc := if taken then s.pc + 2 + sext16 offset else s.pc + 2 } := rfl

theorem opJsr_eq (target : Addr) :
    opJsr target s = { push (push s (highByte (s.pc + 3))) (lowByte (s.pc + 3)) with pc := target } := rfl

theorem opRts_eq :
    opRts s = { s with
      sp := s.sp + 1 + 1,
      pc := hiLo (busRead s (stackAddress (s.sp + 1 + 1))) (busRead s (stackAddress (s.sp + 1))) } := rfl

/-- The 8-bit result of an addition is the sum modulo 256. -/
theorem addResult_eq (a m : Byte) (carry : Bool) : addResult a m carry = a + m + BitVec.ofNat 8 carry.toNat := by
  apply BitVec.eq_of_toNat_eq
  simp [addResult, addSum, BitVec.toNat_add]

/-- The complement as a number. -/
theorem toNat_complement (m : Byte) : (complement m).toNat = 255 - m.toNat := by
  have h : complement m = ~~~ m := by
    apply BitVec.eq_of_getLsbD_eq
    intro i hi
    rw [complement, BitVec.getLsbD_xor, show (0xFF : Byte) = BitVec.allOnes 8 from rfl, BitVec.getLsbD_allOnes]
    simp [hi]
  rw [h, BitVec.toNat_not]

/-- Every meaning answers a next state. -/
theorem exec_answers_next (i : Instr) : ∃ t : State, exec i s = .next t := by
  cases i <;> exact ⟨_, rfl⟩

end Sys2Proof.Machine
end

