-- ==== Sys2Proof/Laws/AnyBus.lean ====
section
/-! SUPPORT. Programs of bus calls: how they compose, and that the host's requests other than step, run on flat RAM, are
those of Machine/Requests.lean. -/

namespace Sys2Proof.Machine

variable {α β γ : Type}

/-- A program after another runs on the bus the first one left. -/
theorem BusProgram.runOn_andThen (p : BusProgram α) (k : α → BusProgram γ) (bus : BusOps β) (b : β) :
    (p.andThen k).runOn bus b = (k (p.runOn bus b).1).runOn bus (p.runOn bus b).2 := by
  induction p generalizing b with
  | done _ => rfl
  | read _ _ ih => exact ih _ _
  | write _ _ _ ih => exact ih _

/-- A program after another makes its calls after the first one's. -/
theorem BusProgram.callsOn_andThen (p : BusProgram α) (k : α → BusProgram γ) (bus : BusOps β) (b : β) :
    (p.andThen k).callsOn bus b = p.callsOn bus b ++ (k (p.runOn bus b).1).callsOn bus (p.runOn bus b).2 := by
  induction p generalizing b with
  | done _ => rfl
  | read address _ ih => exact congrArg (BusAccess.read address :: ·) (ih _ _)
  | write address v _ ih => exact congrArg (BusAccess.write address v :: ·) (ih _)

/-! Writing bytes. -/

/-- The calls of `writeBytes`: one write for each byte, in ascending order. -/
def writesOf (address : Addr) (bytes : List Byte) : List BusAccess :=
  match bytes with
  | [] => []
  | b :: rest => .write address b :: writesOf (address + 1) rest

theorem callsOn_writeBytes (bytes : List Byte) (address : Addr) (next : BusProgram α) (b : β) (bus : BusOps β) :
    ∃ after : β, (writeBytes address bytes next).callsOn bus b = writesOf address bytes ++ next.callsOn bus after := by
  induction bytes generalizing address b with
  | nil => exact ⟨b, rfl⟩
  | cons v rest ih =>
    obtain ⟨after, h⟩ := ih (address + 1) (bus.write address v b)
    exact ⟨after, congrArg (BusAccess.write address v :: ·) h⟩

/-- On flat RAM `writeBytes` is `storeBytes`. -/
theorem runOn_writeBytes_flatRam (bytes : List Byte) (address : Addr) (next : BusProgram α) (s : State) :
    (writeBytes address bytes next).runOn flatRam s.mem = next.runOn flatRam (storeBytes s address bytes).mem := by
  induction bytes generalizing address s with
  | nil => rfl
  | cons v rest ih => exact ih (address + 1) (busWrite s address v)

/-! The requests. -/

/-- The calls of `load` on any bus: the image's bytes in ascending order, then the two bytes of the vector. -/
theorem callsOn_loadProgram {image : List Byte} (h : image.length ≤ Config.maxImage) (bus : BusOps β) (b : β) :
    (loadProgram image).callsOn bus b =
      writesOf 0x8000 image ++ [.write 0xFFFC 0x00, .write 0xFFFD 0x80] := by
  rw [loadProgram, if_neg (Nat.not_lt.mpr h)]
  obtain ⟨_, h⟩ := callsOn_writeBytes image Config.loadBase _ b bus
  exact h

/-- An image that is too long makes no call on any bus. -/
theorem runOn_loadProgram_sizeError {image : List Byte} (h : Config.maxImage < image.length) (bus : BusOps β) (b : β) :
    (loadProgram image).callsOn bus b = [] ∧ (loadProgram image).runOn bus b = (.sizeError, b) := by
  simp only [loadProgram, loadReply, if_pos h, BusProgram.callsOn, BusProgram.runOn, and_self]

theorem registers_storeBytes (s : State) (address : Addr) (bytes : List Byte) :
    registers (storeBytes s address bytes) = registers s := by
  obtain ⟨ha, hx, hy, hsp, hpc, hf, _⟩ := storeBytes_frame bytes s address
  simp only [registers, ha, hx, hy, hsp, hpc, hf]

theorem registers_loadRequest (image : List Byte) (s : State) : registers (loadRequest image s) = registers s := by
  unfold loadRequest
  split
  · rfl
  · exact registers_storeBytes s Config.loadBase image

/-- `load` on flat RAM. -/
theorem runOn_loadProgram_flatRam (image : List Byte) (s : State) :
    (loadProgram image).runOn flatRam s.mem = (loadReply image, (loadRequest image s).mem) := by
  unfold loadProgram loadRequest
  split
  · rfl
  · exact runOn_writeBytes_flatRam image Config.loadBase _ s

/-- A request other than step, served over flat RAM, is the request served by the machine. -/
theorem serveOn_flatRam {q : Request} (hq : q ≠ .step) (s : State) : ∃ (reply : Reply) (t : State),
    serve q s = .next (reply, t) ∧
    serveOn flatRam State.reset.mem q (registers s) s.mem = ((reply, registers t), t.mem) := by
  cases q with
  | step => exact absurd rfl hq
  | load image =>
    refine ⟨_, _, rfl, ?_⟩
    simp only [serveOn, requestProgram, busFor, BusProgram.runOn_andThen, runOn_loadProgram_flatRam, BusProgram.runOn,
      registers_loadRequest]
  | write w => cases w <;> exact ⟨_, _, rfl, rfl⟩
  | init => exact ⟨_, _, rfl, rfl⟩
  | reset => exact ⟨_, _, rfl, rfl⟩
  | inspect => exact ⟨_, _, rfl, rfl⟩
  | readMemory address => exact ⟨_, _, rfl, rfl⟩
  | lookup op => exact ⟨_, _, rfl, rfl⟩

end Sys2Proof.Machine
end

