-- ==== Sys2Proof/Laws/Flags.lean ====
section
/-! SUPPORT. What each flag computation writes and what it leaves, flag by flag. -/

namespace Sys2Proof.Machine

variable (f : Flags)

@[simp] theorem setZN_c (v : Byte) : (setZN v f).c = f.c := rfl
@[simp] theorem setZN_z (v : Byte) : (setZN v f).z = (v == 0) := rfl
@[simp] theorem setZN_i (v : Byte) : (setZN v f).i = f.i := rfl
@[simp] theorem setZN_d (v : Byte) : (setZN v f).d = f.d := rfl
@[simp] theorem setZN_b (v : Byte) : (setZN v f).b = f.b := rfl
@[simp] theorem setZN_u (v : Byte) : (setZN v f).u = f.u := rfl
@[simp] theorem setZN_v (v : Byte) : (setZN v f).v = f.v := rfl
@[simp] theorem setZN_n (v : Byte) : (setZN v f).n = v.getLsbD 7 := rfl

/-- Z and N together are never set by `SetZN`. -/
theorem setZN_not_both (v : Byte) : ¬ ((setZN v f).z = true ∧ (setZN v f).n = true) := by
  rintro ⟨hz, hn⟩
  have hv : v = 0 := by simpa using hz
  simp [hv] at hn

/-- An addition writes C, V, Z, N and leaves I, D, B, U. -/
theorem addFlags_storage (a m : Byte) :
    (addFlags a m f).i = f.i ∧ (addFlags a m f).d = f.d ∧ (addFlags a m f).b = f.b ∧ (addFlags a m f).u = f.u :=
  ⟨rfl, rfl, rfl, rfl⟩

/-- A comparison leaves V, I, D, B, U. -/
theorem compareFlags_frame (r m : Byte) :
    (compareFlags r m f).v = f.v ∧ (compareFlags r m f).i = f.i ∧ (compareFlags r m f).d = f.d ∧
    (compareFlags r m f).b = f.b ∧ (compareFlags r m f).u = f.u :=
  ⟨rfl, rfl, rfl, rfl, rfl⟩

/-- BIT leaves C, I, D, B, U. -/
theorem bitFlags_frame (a m : Byte) :
    (bitFlags a m f).c = f.c ∧ (bitFlags a m f).i = f.i ∧ (bitFlags a m f).d = f.d ∧
    (bitFlags a m f).b = f.b ∧ (bitFlags a m f).u = f.u :=
  ⟨rfl, rfl, rfl, rfl, rfl⟩

/-- A shift leaves V, I, D, B, U. -/
theorem shiftFlags_frame (r : Shifted) :
    (shiftFlags r f).v = f.v ∧ (shiftFlags r f).i = f.i ∧ (shiftFlags r f).d = f.d ∧
    (shiftFlags r f).b = f.b ∧ (shiftFlags r f).u = f.u :=
  ⟨rfl, rfl, rfl, rfl, rfl⟩

/-- The exact sum of an addition is at most 511. -/
theorem addSum_lt (a m : Byte) (carry : Bool) : addSum a m carry < 512 := by
  have ha := a.isLt
  have hm := m.isLt
  have hc : carry.toNat ≤ 1 := Bool.toNat_le carry
  unfold addSum
  omega

end Sys2Proof.Machine
end

