-- ==== Sys2Proof/Laws/Operands.lean ====
section
/-! SUPPORT. The resolver: which context fields each form of operand populates, and that it looks at X, Y and memory
alone. -/

namespace Sys2Proof.Machine

variable (s : State)

@[simp] theorem resolve_implied : resolve .implied s = Context.empty := rfl
@[simp] theorem resolve_accumulator : resolve .accumulator s = Context.empty := rfl
@[simp] theorem resolve_illegal : resolve .illegal s = Context.empty := rfl
@[simp] theorem resolve_immediate_operand (v : Byte) : (resolve (.immediate v) s).operand = some v := rfl
@[simp] theorem resolve_relative_offset (v : Byte) : (resolve (.relative v) s).offset = some v := rfl
@[simp] theorem resolve_indirect_address (p : Addr) :
    (resolve (.indirect p) s).address = some (indirectTarget p s) := rfl
@[simp] theorem resolve_memory_operand (m : MemOperand) :
    (resolve (.memory m) s).operand = some (memoryByte m s) := rfl
@[simp] theorem resolve_memory_address (m : MemOperand) :
    (resolve (.memory m) s).address = some (effectiveAddress m s) := rfl

theorem busReadZeroPageWord_congr {s t : State} (h : s.mem = t.mem) (zp : Byte) :
    busReadZeroPageWord s zp = busReadZeroPageWord t zp := by
  simp only [busReadZeroPageWord, busRead_congr h]

theorem effectiveAddress_congr {s t : State} (hx : s.x = t.x) (hy : s.y = t.y) (hm : s.mem = t.mem)
    (m : MemOperand) : effectiveAddress m s = effectiveAddress m t := by
  cases m <;> simp only [effectiveAddress, hx, hy, busReadZeroPageWord_congr hm]

theorem memoryByte_congr {s t : State} (hx : s.x = t.x) (hy : s.y = t.y) (hm : s.mem = t.mem)
    (m : MemOperand) : memoryByte m s = memoryByte m t := by
  simp only [memoryByte, effectiveAddress_congr hx hy hm, busRead_congr hm]

theorem indirectTarget_congr {s t : State} (hm : s.mem = t.mem) (p : Addr) :
    indirectTarget p s = indirectTarget p t := by
  simp only [indirectTarget, busReadWord, busRead_congr hm]

end Sys2Proof.Machine
end

