-- ==== Sys2Proof/Laws/PerInstr.lean ====
section
/-! SUPPORT. Statements made one constructor at a time. EncodedLength: the encoder writes as many bytes as the
instruction's mode says. 30_encoding.md R80, R84. -/

namespace Sys2Proof.Laws

/-- `i` encodes to `i.length` bytes. -/
def EncodedLength.Statement (i : Instr) : Prop := (encode i).length = i.length

namespace EncodedLength

theorem ldaImmediate (value : Byte) : Statement (.ldaImmediate value) := rfl
theorem ldaZeroPage (zp : Byte) : Statement (.ldaZeroPage zp) := rfl
theorem ldaZeroPageX (zp : Byte) : Statement (.ldaZeroPageX zp) := rfl
theorem ldaAbsolute (address : Addr) : Statement (.ldaAbsolute address) := rfl
theorem ldaAbsoluteX (address : Addr) : Statement (.ldaAbsoluteX address) := rfl
theorem ldaAbsoluteY (address : Addr) : Statement (.ldaAbsoluteY address) := rfl
theorem ldaIndexedIndirectX (zp : Byte) : Statement (.ldaIndexedIndirectX zp) := rfl
theorem ldaIndirectIndexedY (zp : Byte) : Statement (.ldaIndirectIndexedY zp) := rfl
theorem ldxImmediate (value : Byte) : Statement (.ldxImmediate value) := rfl
theorem ldxZeroPage (zp : Byte) : Statement (.ldxZeroPage zp) := rfl
theorem ldxZeroPageY (zp : Byte) : Statement (.ldxZeroPageY zp) := rfl
theorem ldxAbsolute (address : Addr) : Statement (.ldxAbsolute address) := rfl
theorem ldxAbsoluteY (address : Addr) : Statement (.ldxAbsoluteY address) := rfl
theorem ldyImmediate (value : Byte) : Statement (.ldyImmediate value) := rfl
theorem ldyZeroPage (zp : Byte) : Statement (.ldyZeroPage zp) := rfl
theorem ldyZeroPageX (zp : Byte) : Statement (.ldyZeroPageX zp) := rfl
theorem ldyAbsolute (address : Addr) : Statement (.ldyAbsolute address) := rfl
theorem ldyAbsoluteX (address : Addr) : Statement (.ldyAbsoluteX address) := rfl
theorem staZeroPage (zp : Byte) : Statement (.staZeroPage zp) := rfl
theorem staZeroPageX (zp : Byte) : Statement (.staZeroPageX zp) := rfl
theorem staAbsolute (address : Addr) : Statement (.staAbsolute address) := rfl
theorem staAbsoluteX (address : Addr) : Statement (.staAbsoluteX address) := rfl
theorem staAbsoluteY (address : Addr) : Statement (.staAbsoluteY address) := rfl
theorem staIndexedIndirectX (zp : Byte) : Statement (.staIndexedIndirectX zp) := rfl
theorem staIndirectIndexedY (zp : Byte) : Statement (.staIndirectIndexedY zp) := rfl
theorem stxZeroPage (zp : Byte) : Statement (.stxZeroPage zp) := rfl
theorem stxZeroPageY (zp : Byte) : Statement (.stxZeroPageY zp) := rfl
theorem stxAbsolute (address : Addr) : Statement (.stxAbsolute address) := rfl
theorem styZeroPage (zp : Byte) : Statement (.styZeroPage zp) := rfl
theorem styZeroPageX (zp : Byte) : Statement (.styZeroPageX zp) := rfl
theorem styAbsolute (address : Addr) : Statement (.styAbsolute address) := rfl
theorem tax : Statement .tax := rfl
theorem tay : Statement .tay := rfl
theorem txa : Statement .txa := rfl
theorem tya : Statement .tya := rfl
theorem tsx : Statement .tsx := rfl
theorem txs : Statement .txs := rfl
theorem pha : Statement .pha := rfl
theorem php : Statement .php := rfl
theorem pla : Statement .pla := rfl
theorem plp : Statement .plp := rfl
theorem andImmediate (value : Byte) : Statement (.andImmediate value) := rfl
theorem andZeroPage (zp : Byte) : Statement (.andZeroPage zp) := rfl
theorem andZeroPageX (zp : Byte) : Statement (.andZeroPageX zp) := rfl
theorem andAbsolute (address : Addr) : Statement (.andAbsolute address) := rfl
theorem andAbsoluteX (address : Addr) : Statement (.andAbsoluteX address) := rfl
theorem andAbsoluteY (address : Addr) : Statement (.andAbsoluteY address) := rfl
theorem andIndexedIndirectX (zp : Byte) : Statement (.andIndexedIndirectX zp) := rfl
theorem andIndirectIndexedY (zp : Byte) : Statement (.andIndirectIndexedY zp) := rfl
theorem oraImmediate (value : Byte) : Statement (.oraImmediate value) := rfl
theorem oraZeroPage (zp : Byte) : Statement (.oraZeroPage zp) := rfl
theorem oraZeroPageX (zp : Byte) : Statement (.oraZeroPageX zp) := rfl
theorem oraAbsolute (address : Addr) : Statement (.oraAbsolute address) := rfl
theorem oraAbsoluteX (address : Addr) : Statement (.oraAbsoluteX address) := rfl
theorem oraAbsoluteY (address : Addr) : Statement (.oraAbsoluteY address) := rfl
theorem oraIndexedIndirectX (zp : Byte) : Statement (.oraIndexedIndirectX zp) := rfl
theorem oraIndirectIndexedY (zp : Byte) : Statement (.oraIndirectIndexedY zp) := rfl
theorem eorImmediate (value : Byte) : Statement (.eorImmediate value) := rfl
theorem eorZeroPage (zp : Byte) : Statement (.eorZeroPage zp) := rfl
theorem eorZeroPageX (zp : Byte) : Statement (.eorZeroPageX zp) := rfl
theorem eorAbsolute (address : Addr) : Statement (.eorAbsolute address) := rfl
theorem eorAbsoluteX (address : Addr) : Statement (.eorAbsoluteX address) := rfl
theorem eorAbsoluteY (address : Addr) : Statement (.eorAbsoluteY address) := rfl
theorem eorIndexedIndirectX (zp : Byte) : Statement (.eorIndexedIndirectX zp) := rfl
theorem eorIndirectIndexedY (zp : Byte) : Statement (.eorIndirectIndexedY zp) := rfl
theorem bitZeroPage (zp : Byte) : Statement (.bitZeroPage zp) := rfl
theorem bitAbsolute (address : Addr) : Statement (.bitAbsolute address) := rfl
theorem adcImmediate (value : Byte) : Statement (.adcImmediate value) := rfl
theorem adcZeroPage (zp : Byte) : Statement (.adcZeroPage zp) := rfl
theorem adcZeroPageX (zp : Byte) : Statement (.adcZeroPageX zp) := rfl
theorem adcAbsolute (address : Addr) : Statement (.adcAbsolute address) := rfl
theorem adcAbsoluteX (address : Addr) : Statement (.adcAbsoluteX address) := rfl
theorem adcAbsoluteY (address : Addr) : Statement (.adcAbsoluteY address) := rfl
theorem adcIndexedIndirectX (zp : Byte) : Statement (.adcIndexedIndirectX zp) := rfl
theorem adcIndirectIndexedY (zp : Byte) : Statement (.adcIndirectIndexedY zp) := rfl
theorem sbcImmediate (value : Byte) : Statement (.sbcImmediate value) := rfl
theorem sbcZeroPage (zp : Byte) : Statement (.sbcZeroPage zp) := rfl
theorem sbcZeroPageX (zp : Byte) : Statement (.sbcZeroPageX zp) := rfl
theorem sbcAbsolute (address : Addr) : Statement (.sbcAbsolute address) := rfl
theorem sbcAbsoluteX (address : Addr) : Statement (.sbcAbsoluteX address) := rfl
theorem sbcAbsoluteY (address : Addr) : Statement (.sbcAbsoluteY address) := rfl
theorem sbcIndexedIndirectX (zp : Byte) : Statement (.sbcIndexedIndirectX zp) := rfl
theorem sbcIndirectIndexedY (zp : Byte) : Statement (.sbcIndirectIndexedY zp) := rfl
theorem cmpImmediate (value : Byte) : Statement (.cmpImmediate value) := rfl
theorem cmpZeroPage (zp : Byte) : Statement (.cmpZeroPage zp) := rfl
theorem cmpZeroPageX (zp : Byte) : Statement (.cmpZeroPageX zp) := rfl
theorem cmpAbsolute (address : Addr) : Statement (.cmpAbsolute address) := rfl
theorem cmpAbsoluteX (address : Addr) : Statement (.cmpAbsoluteX address) := rfl
theorem cmpAbsoluteY (address : Addr) : Statement (.cmpAbsoluteY address) := rfl
theorem cmpIndexedIndirectX (zp : Byte) : Statement (.cmpIndexedIndirectX zp) := rfl
theorem cmpIndirectIndexedY (zp : Byte) : Statement (.cmpIndirectIndexedY zp) := rfl
theorem cpxImmediate (value : Byte) : Statement (.cpxImmediate value) := rfl
theorem cpxZeroPage (zp : Byte) : Statement (.cpxZeroPage zp) := rfl
theorem cpxAbsolute (address : Addr) : Statement (.cpxAbsolute address) := rfl
theorem cpyImmediate (value : Byte) : Statement (.cpyImmediate value) := rfl
theorem cpyZeroPage (zp : Byte) : Statement (.cpyZeroPage zp) := rfl
theorem cpyAbsolute (address : Addr) : Statement (.cpyAbsolute address) := rfl
theorem incZeroPage (zp : Byte) : Statement (.incZeroPage zp) := rfl
theorem incZeroPageX (zp : Byte) : Statement (.incZeroPageX zp) := rfl
theorem incAbsolute (address : Addr) : Statement (.incAbsolute address) := rfl
theorem incAbsoluteX (address : Addr) : Statement (.incAbsoluteX address) := rfl
theorem decZeroPage (zp : Byte) : Statement (.decZeroPage zp) := rfl
theorem decZeroPageX (zp : Byte) : Statement (.decZeroPageX zp) := rfl
theorem decAbsolute (address : Addr) : Statement (.decAbsolute address) := rfl
theorem decAbsoluteX (address : Addr) : Statement (.decAbsoluteX address) := rfl
theorem inx : Statement .inx := rfl
theorem iny : Statement .iny := rfl
theorem dex : Statement .dex := rfl
theorem dey : Statement .dey := rfl
theorem aslAccumulator : Statement .aslAccumulator := rfl
theorem aslZeroPage (zp : Byte) : Statement (.aslZeroPage zp) := rfl
theorem aslZeroPageX (zp : Byte) : Statement (.aslZeroPageX zp) := rfl
theorem aslAbsolute (address : Addr) : Statement (.aslAbsolute address) := rfl
theorem aslAbsoluteX (address : Addr) : Statement (.aslAbsoluteX address) := rfl
theorem lsrAccumulator : Statement .lsrAccumulator := rfl
theorem lsrZeroPage (zp : Byte) : Statement (.lsrZeroPage zp) := rfl
theorem lsrZeroPageX (zp : Byte) : Statement (.lsrZeroPageX zp) := rfl
theorem lsrAbsolute (address : Addr) : Statement (.lsrAbsolute address) := rfl
theorem lsrAbsoluteX (address : Addr) : Statement (.lsrAbsoluteX address) := rfl
theorem rolAccumulator : Statement .rolAccumulator := rfl
theorem rolZeroPage (zp : Byte) : Statement (.rolZeroPage zp) := rfl
theorem rolZeroPageX (zp : Byte) : Statement (.rolZeroPageX zp) := rfl
theorem rolAbsolute (address : Addr) : Statement (.rolAbsolute address) := rfl
theorem rolAbsoluteX (address : Addr) : Statement (.rolAbsoluteX address) := rfl
theorem rorAccumulator : Statement .rorAccumulator := rfl
theorem rorZeroPage (zp : Byte) : Statement (.rorZeroPage zp) := rfl
theorem rorZeroPageX (zp : Byte) : Statement (.rorZeroPageX zp) := rfl
theorem rorAbsolute (address : Addr) : Statement (.rorAbsolute address) := rfl
theorem rorAbsoluteX (address : Addr) : Statement (.rorAbsoluteX address) := rfl
theorem jmpAbsolute (target : Addr) : Statement (.jmpAbsolute target) := rfl
theorem jmpIndirect (pointer : Addr) : Statement (.jmpIndirect pointer) := rfl
theorem jsr (target : Addr) : Statement (.jsr target) := rfl
theorem rts : Statement .rts := rfl
theorem bcc (offset : Byte) : Statement (.bcc offset) := rfl
theorem bcs (offset : Byte) : Statement (.bcs offset) := rfl
theorem beq (offset : Byte) : Statement (.beq offset) := rfl
theorem bne (offset : Byte) : Statement (.bne offset) := rfl
theorem bmi (offset : Byte) : Statement (.bmi offset) := rfl
theorem bpl (offset : Byte) : Statement (.bpl offset) := rfl
theorem bvc (offset : Byte) : Statement (.bvc offset) := rfl
theorem bvs (offset : Byte) : Statement (.bvs offset) := rfl
theorem clc : Statement .clc := rfl
theorem sec : Statement .sec := rfl
theorem cli : Statement .cli := rfl
theorem sei : Statement .sei := rfl
theorem cld : Statement .cld := rfl
theorem sed : Statement .sed := rfl
theorem clv : Statement .clv := rfl
theorem nop : Statement .nop := rfl
theorem brk : Statement .brk := rfl
theorem rti : Statement .rti := rfl
theorem ill (opcode : Byte) : Statement (.ill opcode) := rfl

end EncodedLength

/-- Every mode's length is 1, 2 or 3. -/
theorem mode_length_bounds (m : Mode) : 1 ≤ m.length ∧ m.length ≤ 3 := by
  cases m <;> exact ⟨by decide, by decide⟩

end Sys2Proof.Laws
end

