-- ==== Sys2Proof/Tests/Slice0.lean ====
section
/-! SUPPORT. The model's own tests: the WellFormed smoke test, every row's word, one or two vectors for an instruction,
and, for every statement with hypotheses, a witness that they can be met together. Words come from 30_encoding.md R80,
R88 and R91, expected results from 95_test_vectors.md, none from the model. -/

namespace Sys2Proof.Tests

open Sys2Proof.Machine

/-! Well-formed terms. -/

/-- A documented opcode byte is not an Illegal one: 0xA9 is LDA's. -/
theorem test_illFormed_ill_of_documented_byte : (Instr.ill 0xA9).wellFormed = false := by decide
theorem test_illFormed_ill_of_brk_byte : (Instr.ill 0x00).wellFormed = false := by decide
theorem test_illFormed_ill_of_rti_byte : (Instr.ill 0x40).wellFormed = false := by decide
theorem test_wellFormed_first_and_last_ill : (Instr.ill 0x02).wellFormed = true ∧ (Instr.ill 0xFF).wellFormed = true := by
  decide
theorem test_wellFormed_documented : (Instr.ldaAbsolute 0xFFFF).wellFormed = true := by decide
/-- 30_encoding.md R92: 105 bytes, none twice. -/
theorem test_illegal_bytes_count : illegalOpcodes.length = 105 ∧ illegalOpcodes.Nodup := by decide

/-! Decoding. The operand byte is 0x12; the operand word is stored 0x34 0x12 and reads 0x1234. -/

/-- The one instruction these bytes are, with nothing left over. -/
def decoded (bytes : List Byte) : Option Instr :=
  match decode bytes with
  | .ok (i, []) => some i
  | _ => none

/-- Every word decodes to the instruction beside it. -/
def allDecode (rows : List (List Byte × Instr)) : Bool :=
  rows.all fun row => decide (decoded row.1 = some row.2)

/-- The words of loads and stores. 30_encoding.md R91. -/
theorem test_decode_load_store :
    allDecode
      [([0xA9, 0x12], .ldaImmediate 0x12), ([0xA5, 0x12], .ldaZeroPage 0x12), ([0xB5, 0x12], .ldaZeroPageX 0x12),
       ([0xAD, 0x34, 0x12], .ldaAbsolute 0x1234), ([0xBD, 0x34, 0x12], .ldaAbsoluteX 0x1234),
       ([0xB9, 0x34, 0x12], .ldaAbsoluteY 0x1234), ([0xA1, 0x12], .ldaIndexedIndirectX 0x12),
       ([0xB1, 0x12], .ldaIndirectIndexedY 0x12)] = true ∧
    allDecode
      [([0xA2, 0x12], .ldxImmediate 0x12), ([0xA6, 0x12], .ldxZeroPage 0x12), ([0xB6, 0x12], .ldxZeroPageY 0x12),
       ([0xAE, 0x34, 0x12], .ldxAbsolute 0x1234), ([0xBE, 0x34, 0x12], .ldxAbsoluteY 0x1234),
       ([0xA0, 0x12], .ldyImmediate 0x12), ([0xA4, 0x12], .ldyZeroPage 0x12), ([0xB4, 0x12], .ldyZeroPageX 0x12),
       ([0xAC, 0x34, 0x12], .ldyAbsolute 0x1234), ([0xBC, 0x34, 0x12], .ldyAbsoluteX 0x1234)] = true ∧
    allDecode
      [([0x85, 0x12], .staZeroPage 0x12), ([0x95, 0x12], .staZeroPageX 0x12),
       ([0x8D, 0x34, 0x12], .staAbsolute 0x1234), ([0x9D, 0x34, 0x12], .staAbsoluteX 0x1234),
       ([0x99, 0x34, 0x12], .staAbsoluteY 0x1234), ([0x81, 0x12], .staIndexedIndirectX 0x12),
       ([0x91, 0x12], .staIndirectIndexedY 0x12), ([0x86, 0x12], .stxZeroPage 0x12),
       ([0x96, 0x12], .stxZeroPageY 0x12), ([0x8E, 0x34, 0x12], .stxAbsolute 0x1234)] = true ∧
    allDecode
      [([0x84, 0x12], .styZeroPage 0x12), ([0x94, 0x12], .styZeroPageX 0x12),
       ([0x8C, 0x34, 0x12], .styAbsolute 0x1234)] = true := by decide

/-- The words of transfers and stack. 30_encoding.md R91. -/
theorem test_decode_transfer_stack :
    allDecode
      [([0xAA], .tax), ([0xA8], .tay), ([0x8A], .txa), ([0x98], .tya), ([0xBA], .tsx), ([0x9A], .txs),
       ([0x48], .pha), ([0x08], .php), ([0x68], .pla), ([0x28], .plp)] = true := by decide

/-- The words of logical. 30_encoding.md R91. -/
theorem test_decode_logical :
    allDecode
      [([0x29, 0x12], .andImmediate 0x12), ([0x25, 0x12], .andZeroPage 0x12), ([0x35, 0x12], .andZeroPageX 0x12),
       ([0x2D, 0x34, 0x12], .andAbsolute 0x1234), ([0x3D, 0x34, 0x12], .andAbsoluteX 0x1234),
       ([0x39, 0x34, 0x12], .andAbsoluteY 0x1234), ([0x21, 0x12], .andIndexedIndirectX 0x12),
       ([0x31, 0x12], .andIndirectIndexedY 0x12)] = true ∧
    allDecode
      [([0x09, 0x12], .oraImmediate 0x12), ([0x05, 0x12], .oraZeroPage 0x12), ([0x15, 0x12], .oraZeroPageX 0x12),
       ([0x0D, 0x34, 0x12], .oraAbsolute 0x1234), ([0x1D, 0x34, 0x12], .oraAbsoluteX 0x1234),
       ([0x19, 0x34, 0x12], .oraAbsoluteY 0x1234), ([0x01, 0x12], .oraIndexedIndirectX 0x12),
       ([0x11, 0x12], .oraIndirectIndexedY 0x12)] = true ∧
    allDecode
      [([0x49, 0x12], .eorImmediate 0x12), ([0x45, 0x12], .eorZeroPage 0x12), ([0x55, 0x12], .eorZeroPageX 0x12),
       ([0x4D, 0x34, 0x12], .eorAbsolute 0x1234), ([0x5D, 0x34, 0x12], .eorAbsoluteX 0x1234),
       ([0x59, 0x34, 0x12], .eorAbsoluteY 0x1234), ([0x41, 0x12], .eorIndexedIndirectX 0x12),
       ([0x51, 0x12], .eorIndirectIndexedY 0x12), ([0x24, 0x12], .bitZeroPage 0x12),
       ([0x2C, 0x34, 0x12], .bitAbsolute 0x1234)] = true := by decide

/-- The words of arithmetic and compares. 30_encoding.md R91. -/
theorem test_decode_arithmetic_compare :
    allDecode
      [([0x69, 0x12], .adcImmediate 0x12), ([0x65, 0x12], .adcZeroPage 0x12), ([0x75, 0x12], .adcZeroPageX 0x12),
       ([0x6D, 0x34, 0x12], .adcAbsolute 0x1234), ([0x7D, 0x34, 0x12], .adcAbsoluteX 0x1234),
       ([0x79, 0x34, 0x12], .adcAbsoluteY 0x1234), ([0x61, 0x12], .adcIndexedIndirectX 0x12),
       ([0x71, 0x12], .adcIndirectIndexedY 0x12)] = true ∧
    allDecode
      [([0xE9, 0x12], .sbcImmediate 0x12), ([0xE5, 0x12], .sbcZeroPage 0x12), ([0xF5, 0x12], .sbcZeroPageX 0x12),
       ([0xED, 0x34, 0x12], .sbcAbsolute 0x1234), ([0xFD, 0x34, 0x12], .sbcAbsoluteX 0x1234),
       ([0xF9, 0x34, 0x12], .sbcAbsoluteY 0x1234), ([0xE1, 0x12], .sbcIndexedIndirectX 0x12),
       ([0xF1, 0x12], .sbcIndirectIndexedY 0x12)] = true ∧
    allDecode
      [([0xC9, 0x12], .cmpImmediate 0x12), ([0xC5, 0x12], .cmpZeroPage 0x12), ([0xD5, 0x12], .cmpZeroPageX 0x12),
       ([0xCD, 0x34, 0x12], .cmpAbsolute 0x1234), ([0xDD, 0x34, 0x12], .cmpAbsoluteX 0x1234),
       ([0xD9, 0x34, 0x12], .cmpAbsoluteY 0x1234), ([0xC1, 0x12], .cmpIndexedIndirectX 0x12),
       ([0xD1, 0x12], .cmpIndirectIndexedY 0x12)] = true ∧
    allDecode
      [([0xE0, 0x12], .cpxImmediate 0x12), ([0xE4, 0x12], .cpxZeroPage 0x12),
       ([0xEC, 0x34, 0x12], .cpxAbsolute 0x1234), ([0xC0, 0x12], .cpyImmediate 0x12),
       ([0xC4, 0x12], .cpyZeroPage 0x12), ([0xCC, 0x34, 0x12], .cpyAbsolute 0x1234)] = true := by decide

/-- The words of increments. 30_encoding.md R91. -/
theorem test_decode_incdec :
    allDecode
      [([0xE6, 0x12], .incZeroPage 0x12), ([0xF6, 0x12], .incZeroPageX 0x12),
       ([0xEE, 0x34, 0x12], .incAbsolute 0x1234), ([0xFE, 0x34, 0x12], .incAbsoluteX 0x1234),
       ([0xC6, 0x12], .decZeroPage 0x12), ([0xD6, 0x12], .decZeroPageX 0x12),
       ([0xCE, 0x34, 0x12], .decAbsolute 0x1234), ([0xDE, 0x34, 0x12], .decAbsoluteX 0x1234), ([0xE8], .inx),
       ([0xC8], .iny)] = true ∧
    allDecode
      [([0xCA], .dex), ([0x88], .dey)] = true := by decide

/-- The words of shifts. 30_encoding.md R91. -/
theorem test_decode_shift_rotate :
    allDecode
      [([0x0A], .aslAccumulator), ([0x06, 0x12], .aslZeroPage 0x12), ([0x16, 0x12], .aslZeroPageX 0x12),
       ([0x0E, 0x34, 0x12], .aslAbsolute 0x1234), ([0x1E, 0x34, 0x12], .aslAbsoluteX 0x1234),
       ([0x4A], .lsrAccumulator), ([0x46, 0x12], .lsrZeroPage 0x12), ([0x56, 0x12], .lsrZeroPageX 0x12),
       ([0x4E, 0x34, 0x12], .lsrAbsolute 0x1234), ([0x5E, 0x34, 0x12], .lsrAbsoluteX 0x1234)] = true ∧
    allDecode
      [([0x2A], .rolAccumulator), ([0x26, 0x12], .rolZeroPage 0x12), ([0x36, 0x12], .rolZeroPageX 0x12),
       ([0x2E, 0x34, 0x12], .rolAbsolute 0x1234), ([0x3E, 0x34, 0x12], .rolAbsoluteX 0x1234),
       ([0x6A], .rorAccumulator), ([0x66, 0x12], .rorZeroPage 0x12), ([0x76, 0x12], .rorZeroPageX 0x12),
       ([0x6E, 0x34, 0x12], .rorAbsolute 0x1234), ([0x7E, 0x34, 0x12], .rorAbsoluteX 0x1234)] = true := by decide

/-- The words of jumps and branches. 30_encoding.md R91. -/
theorem test_decode_jump_branch :
    allDecode
      [([0x4C, 0x34, 0x12], .jmpAbsolute 0x1234), ([0x6C, 0x34, 0x12], .jmpIndirect 0x1234),
       ([0x20, 0x34, 0x12], .jsr 0x1234), ([0x60], .rts), ([0x90, 0x12], .bcc 0x12), ([0xB0, 0x12], .bcs 0x12),
       ([0xF0, 0x12], .beq 0x12), ([0xD0, 0x12], .bne 0x12), ([0x30, 0x12], .bmi 0x12), ([0x10, 0x12], .bpl 0x12)] = true ∧
    allDecode
      [([0x50, 0x12], .bvc 0x12), ([0x70, 0x12], .bvs 0x12)] = true := by decide

/-- The words of flags, NOP, BRK and RTI. 30_encoding.md R91. -/
theorem test_decode_flag_nop_system :
    allDecode
      [([0x18], .clc), ([0x38], .sec), ([0x58], .cli), ([0x78], .sei), ([0xD8], .cld), ([0xF8], .sed),
       ([0xB8], .clv), ([0xEA], .nop), ([0x00], .brk), ([0x40], .rti)] = true := by decide

/-- Words written out bit by bit, one for each family, from the opcode bytes of 30_encoding.md R91. -/
theorem test_decode_bits :
    allDecode [([0b10101001, 0b00000101], .ldaImmediate 0x05), ([0b10001101, 0b00001010, 0b10000000], .staAbsolute 0x800A),
     ([0b10101010], .tax), ([0b01001000], .pha), ([0b00101001, 0b00001111], .andImmediate 0x0F)] = true ∧
    allDecode [([0b11110001, 0b01000000], .sbcIndirectIndexedY 0x40), ([0b11111110, 0b00000000, 0b00000010], .incAbsoluteX 0x0200),
     ([0b01101010], .rorAccumulator), ([0b11010000, 0b11111011], .bne 0xFB), ([0b00111000], .sec), ([0b00000010], .ill 0x02)] = true := by decide

/-- Every Illegal byte decodes to itself, and takes no operand bytes. 30_encoding.md R84, R92. -/
theorem test_decode_illegal : (illegalOpcodes.all fun op => decide (decoded [op] = some (.ill op))) = true := by decide

/-- What the decoder refuses: no byte at all, and an opcode without its operand bytes. -/
theorem test_decode_short :
    decoded [] = none ∧ decoded [0xA9] = none ∧ decoded [0xAD, 0x34] = none ∧ decoded [0xEA, 0xEA] = none := by decide

/-- 30_encoding.md R80: the operand word's low byte is at the lower address. -/
theorem test_encode_word_order : encode (.jmpAbsolute 0x1234) = [0x4C, 0x34, 0x12] := by decide

/-- The host numbers the first byte's bits lowest. -/
theorem test_decodeTableWord :
    decodeTableWord 24 0x1234AD = some (.ldaAbsolute 0x1234) ∧ decodeTableWord 8 0xAD = some (.ldaAbsolute 0x0000) ∧
    decodeTableWord 8 0x02 = some (.ill 0x02) := by decide

/-- How many opcode bytes are of a class. -/
def countOfClass (c : OpcodeClass) : Nat := ((List.range 256).filter fun n => (lookup (BitVec.ofNat 8 n)).cls = c).length

set_option maxRecDepth 4096 in
/-- 30_encoding.md R94: 112 implemented, 37 deferred forms, 2 rejected system opcodes, 105 Illegal. -/
theorem test_class_counts :
    countOfClass .implemented = 112 ∧ countOfClass .deferredForm = 37 ∧ countOfClass .rejectedSystem = 2 ∧
    countOfClass .illegal = 105 := by decide

/-! One step. -/

/-- A state with these registers, this packed status and power-on memory. -/
def regs (a x y sp p : Byte) (pc : Addr) : State :=
  { State.reset with a := a, x := x, y := y, sp := sp, flags := unpack p, pc := pc }

/-- `s` with these bytes stored at PC. -/
def code (bytes : List Byte) (s : State) : State := storeBytes s s.pc bytes

/-- `s` with these bytes of memory set. -/
def poke (cells : List (Addr × Byte)) (s : State) : State :=
  cells.foldl (fun t c => busWrite t c.1 c.2) s

/-- The next state of an answer, if it is one. -/
def nextOf (o : Answer) : Option State :=
  match o with
  | .next t => some t
  | _ => none

/-- Does a step go to A, X, Y, SP, packed status, PC, with these bytes in memory, and return this result? -/
def stepsTo (s : State) (a x y sp p : Byte) (pc : Addr) (cells : List (Addr × Byte)) (result : BitVec 16) : Bool :=
  match step s with
  | .next t =>
    decide (t.a = a ∧ t.x = x ∧ t.y = y ∧ t.sp = sp ∧ pack t.flags = p ∧ t.pc = pc) &&
      decide (t.answer.map StepResult.code = some result) && cells.all fun c => decide (busRead t c.1 = c.2)
  | _ => false

theorem test_lda_zeroPageX_wraps : stepsTo (poke [(0x0010, 0x77), (0x0110, 0x99)] (code [0xB5, 0xF0] (regs 0x00 0x20 0x00 0xFF 0x00 0x8000)))
    0x77 0x20 0x00 0xFF 0x00 0x8002 [] 0x00B5 = true := by decide
theorem test_lda_indexedIndirectX_pointer_wraps : stepsTo (poke [(0x00FF, 0x34), (0x0000, 0x12), (0x1234, 0x80)] (code [0xA1, 0xFF] (regs 0x00 0x00 0x00 0xFF 0x00 0x8000)))
    0x80 0x00 0x00 0xFF 0x80 0x8002 [] 0x00A1 = true := by decide
theorem test_ldx_zeroPageY_wraps : stepsTo (poke [(0x0001, 0x80)] (code [0xB6, 0xFF] (regs 0x00 0x00 0x02 0xFF 0x00 0x8000)))
    0x00 0x80 0x02 0xFF 0x80 0x8002 [] 0x00B6 = true := by decide
theorem test_ldy_absoluteX : stepsTo (poke [(0x0300, 0x80)] (code [0xBC, 0xFF, 0x02] (regs 0x00 0x01 0x00 0xFF 0x00 0x8000)))
    0x00 0x01 0x80 0xFF 0x80 0x8003 [] 0x00BC = true := by decide
theorem test_sta_absoluteX_wraps : stepsTo (code [0x9D, 0xFF, 0xFF] (regs 0x12 0x02 0x00 0xFF 0x00 0x8000))
    0x12 0x02 0x00 0xFF 0x00 0x8003 [(0x0001, 0x12)] 0x009D = true := by decide
theorem test_sta_indirectIndexedY : stepsTo (poke [(0x0040, 0xF8), (0x0041, 0x02)] (code [0x91, 0x40] (regs 0xAA 0x00 0x10 0xFF 0x00 0x8000)))
    0xAA 0x00 0x10 0xFF 0x00 0x8002 [(0x0308, 0xAA)] 0x0091 = true := by decide
theorem test_stx_zero_sets_no_flag : stepsTo (poke [(0x0010, 0xFF)] (code [0x86, 0x10] (regs 0x00 0x00 0x00 0xFF 0x80 0x8000)))
    0x00 0x00 0x00 0xFF 0x80 0x8002 [(0x0010, 0x00)] 0x0086 = true := by decide
theorem test_sty_zeroPageX_wraps : stepsTo (code [0x94, 0xF8] (regs 0x00 0x10 0xEE 0xFF 0x00 0x8000))
    0x00 0x10 0xEE 0xFF 0x00 0x8002 [(0x0008, 0xEE)] 0x0094 = true := by decide
theorem test_tax : stepsTo (code [0xAA] (regs 0x00 0x55 0x00 0xFF 0x80 0x8000))
    0x00 0x00 0x00 0xFF 0x02 0x8001 [] 0x00AA = true := by decide
theorem test_tay : stepsTo (code [0xA8] (regs 0x80 0x00 0x00 0xFF 0x00 0x8000))
    0x80 0x00 0x80 0xFF 0x80 0x8001 [] 0x00A8 = true := by decide
theorem test_txa : stepsTo (code [0x8A] (regs 0xFF 0x7F 0x00 0xFF 0x82 0x8000))
    0x7F 0x7F 0x00 0xFF 0x00 0x8001 [] 0x008A = true := by decide
theorem test_tya : stepsTo (code [0x98] (regs 0x11 0x00 0x00 0xFF 0x00 0x8000))
    0x00 0x00 0x00 0xFF 0x02 0x8001 [] 0x0098 = true := by decide
theorem test_tsx : stepsTo (code [0xBA] (regs 0x00 0x00 0x00 0xFD 0x00 0x8000))
    0x00 0xFD 0x00 0xFD 0x80 0x8001 [] 0x00BA = true := by decide
theorem test_txs_sets_flags : stepsTo (code [0x9A] (regs 0x00 0x00 0x00 0xFF 0x80 0x8000))
    0x00 0x00 0x00 0x00 0x02 0x8001 [] 0x009A = true := by decide
theorem test_pha_wraps : stepsTo (code [0x48] (regs 0x42 0x00 0x00 0x00 0x00 0x8000))
    0x42 0x00 0x00 0xFF 0x00 0x8001 [(0x0100, 0x42)] 0x0048 = true := by decide
theorem test_pla_wraps : stepsTo (poke [(0x0100, 0x80)] (code [0x68] (regs 0x00 0x00 0x00 0xFF 0x00 0x8000)))
    0x80 0x00 0x00 0x00 0x80 0x8001 [] 0x0068 = true := by decide
theorem test_php_forces_no_bit : stepsTo (poke [(0x01FF, 0xFF)] (code [0x08] (regs 0x00 0x00 0x00 0xFF 0x00 0x8000)))
    0x00 0x00 0x00 0xFE 0x00 0x8001 [(0x01FF, 0x00)] 0x0008 = true := by decide
theorem test_plp_restores_b_and_u : stepsTo (poke [(0x01FF, 0x30)] (code [0x28] (regs 0x00 0x00 0x00 0xFE 0x00 0x8000)))
    0x00 0x00 0x00 0xFF 0x30 0x8001 [] 0x0028 = true := by decide
theorem test_and : stepsTo (code [0x29, 0x80] (regs 0xFF 0x00 0x00 0xFF 0x00 0x8000))
    0x80 0x00 0x00 0xFF 0x80 0x8002 [] 0x0029 = true := by decide
theorem test_ora : stepsTo (code [0x09, 0x80] (regs 0x01 0x00 0x00 0xFF 0x00 0x8000))
    0x81 0x00 0x00 0xFF 0x80 0x8002 [] 0x0009 = true := by decide
theorem test_eor : stepsTo (code [0x49, 0xFF] (regs 0xFF 0x00 0x00 0xFF 0x00 0x8000))
    0x00 0x00 0x00 0xFF 0x02 0x8002 [] 0x0049 = true := by decide
theorem test_bit_flags_from_the_and : stepsTo (poke [(0x0010, 0xC0)] (code [0x24, 0x10] (regs 0x0F 0x00 0x00 0xFF 0xC0 0x8000)))
    0x0F 0x00 0x00 0xFF 0x02 0x8002 [] 0x0024 = true := by decide
theorem test_bit_keeps_the_rest : stepsTo (poke [(0x0010, 0xFF)] (code [0x24, 0x10] (regs 0x00 0x00 0x00 0xFF 0x3D 0x8000)))
    0x00 0x00 0x00 0xFF 0x3F 0x8002 [] 0x0024 = true := by decide
theorem test_adc_overflow_by_carry : stepsTo (code [0x69, 0x00] (regs 0x7F 0x00 0x00 0xFF 0x01 0x8000))
    0x80 0x00 0x00 0xFF 0xC0 0x8002 [] 0x0069 = true := by decide
theorem test_adc_decimal_inert : stepsTo (code [0x69, 0x01] (regs 0x09 0x00 0x00 0xFF 0x08 0x8000))
    0x0A 0x00 0x00 0xFF 0x08 0x8002 [] 0x0069 = true := by decide
theorem test_sbc_equal_operands : stepsTo (code [0xE9, 0x05] (regs 0x05 0x00 0x00 0xFF 0x01 0x8000))
    0x00 0x00 0x00 0xFF 0x03 0x8002 [] 0x00E9 = true := by decide
theorem test_sbc_borrow_in : stepsTo (code [0xE9, 0x10] (regs 0x50 0x00 0x00 0xFF 0x00 0x8000))
    0x3F 0x00 0x00 0xFF 0x01 0x8002 [] 0x00E9 = true := by decide
theorem test_cmp_keeps_v : stepsTo (code [0xC9, 0x00] (regs 0xFF 0x00 0x00 0xFF 0x40 0x8000))
    0xFF 0x00 0x00 0xFF 0xC1 0x8002 [] 0x00C9 = true := by decide
theorem test_cmp_n_is_not_less : stepsTo (code [0xC9, 0xFF] (regs 0x00 0x00 0x00 0xFF 0x00 0x8000))
    0x00 0x00 0x00 0xFF 0x00 0x8002 [] 0x00C9 = true := by decide
theorem test_cpx_own_register : stepsTo (code [0xE0, 0x10] (regs 0x10 0x0F 0x00 0xFF 0x00 0x8000))
    0x10 0x0F 0x00 0xFF 0x80 0x8002 [] 0x00E0 = true := by decide
theorem test_cpy_own_register : stepsTo (code [0xC0, 0x80] (regs 0x80 0x80 0x7F 0xFF 0x00 0x8000))
    0x80 0x80 0x7F 0xFF 0x80 0x8002 [] 0x00C0 = true := by decide
theorem test_inc_wraps : stepsTo (poke [(0x0010, 0xFF)] (code [0xE6, 0x10] (regs 0x00 0x00 0x00 0xFF 0x00 0x8000)))
    0x00 0x00 0x00 0xFF 0x02 0x8002 [(0x0010, 0x00)] 0x00E6 = true := by decide
theorem test_dec_absoluteX : stepsTo (poke [(0x0205, 0x00)] (code [0xDE, 0x00, 0x02] (regs 0x00 0x05 0x00 0xFF 0x00 0x8000)))
    0x00 0x05 0x00 0xFF 0x80 0x8003 [(0x0205, 0xFF)] 0x00DE = true := by decide
theorem test_inx_wraps : stepsTo (code [0xE8] (regs 0x00 0xFF 0x00 0xFF 0x00 0x8000))
    0x00 0x00 0x00 0xFF 0x02 0x8001 [] 0x00E8 = true := by decide
theorem test_iny_wraps : stepsTo (code [0xC8] (regs 0x00 0x00 0xFF 0xFF 0x00 0x8000))
    0x00 0x00 0x00 0xFF 0x02 0x8001 [] 0x00C8 = true := by decide
theorem test_dex_wraps : stepsTo (code [0xCA] (regs 0x00 0x00 0x00 0xFF 0x00 0x8000))
    0x00 0xFF 0x00 0xFF 0x80 0x8001 [] 0x00CA = true := by decide
theorem test_dey : stepsTo (code [0x88] (regs 0x00 0x00 0x80 0xFF 0x00 0x8000))
    0x00 0x00 0x7F 0xFF 0x00 0x8001 [] 0x0088 = true := by decide
theorem test_asl_a : stepsTo (code [0x0A] (regs 0x40 0x00 0x00 0xFF 0x01 0x8000))
    0x80 0x00 0x00 0xFF 0x80 0x8001 [] 0x000A = true := by decide
theorem test_asl_memory_keeps_v : stepsTo (poke [(0x0010, 0xC0)] (code [0x06, 0x10] (regs 0x00 0x00 0x00 0xFF 0x40 0x8000)))
    0x00 0x00 0x00 0xFF 0xC1 0x8002 [(0x0010, 0x80)] 0x0006 = true := by decide
theorem test_lsr_a : stepsTo (code [0x4A] (regs 0x80 0x00 0x00 0xFF 0x81 0x8000))
    0x40 0x00 0x00 0xFF 0x00 0x8001 [] 0x004A = true := by decide
theorem test_lsr_memory : stepsTo (poke [(0x0210, 0x03)] (code [0x5E, 0x00, 0x02] (regs 0x00 0x10 0x00 0xFF 0x00 0x8000)))
    0x00 0x10 0x00 0xFF 0x01 0x8003 [(0x0210, 0x01)] 0x005E = true := by decide
theorem test_rol_a : stepsTo (code [0x2A] (regs 0x7F 0x00 0x00 0xFF 0x01 0x8000))
    0xFF 0x00 0x00 0xFF 0x80 0x8001 [] 0x002A = true := by decide
theorem test_rol_memory : stepsTo (poke [(0x0011, 0x80)] (code [0x36, 0x10] (regs 0x00 0x01 0x00 0xFF 0x01 0x8000)))
    0x00 0x01 0x00 0xFF 0x01 0x8002 [(0x0011, 0x01)] 0x0036 = true := by decide
theorem test_ror_a : stepsTo (code [0x6A] (regs 0x00 0x00 0x00 0xFF 0x01 0x8000))
    0x80 0x00 0x00 0xFF 0x80 0x8001 [] 0x006A = true := by decide
theorem test_ror_memory : stepsTo (poke [(0x0200, 0x01)] (code [0x6E, 0x00, 0x02] (regs 0x00 0x00 0x00 0xFF 0x01 0x8000)))
    0x00 0x00 0x00 0xFF 0x81 0x8003 [(0x0200, 0x80)] 0x006E = true := by decide
theorem test_jmp_absolute : stepsTo (code [0x4C, 0x00, 0x02] (regs 0x00 0x00 0x00 0xFF 0x00 0x8000))
    0x00 0x00 0x00 0xFF 0x00 0x0200 [] 0x004C = true := by decide
theorem test_jmp_indirect_crosses_the_page : stepsTo (poke [(0x12FF, 0x00), (0x1300, 0x90), (0x1200, 0x40)] (code [0x6C, 0xFF, 0x12] (regs 0x00 0x00 0x00 0xFF 0x00 0x8000)))
    0x00 0x00 0x00 0xFF 0x00 0x9000 [] 0x006C = true := by decide
theorem test_jsr_stack_wraps : stepsTo (code [0x20, 0x34, 0x12] (regs 0x00 0x00 0x00 0x00 0x00 0x8000))
    0x00 0x00 0x00 0xFE 0x00 0x1234 [(0x0100, 0x80), (0x01FF, 0x03)] 0x0020 = true := by decide
theorem test_rts_stack_wraps : stepsTo (poke [(0x01FF, 0x34), (0x0100, 0x12)] (code [0x60] (regs 0x00 0x00 0x00 0xFE 0x00 0x8000)))
    0x00 0x00 0x00 0x00 0x00 0x1234 [] 0x0060 = true := by decide
theorem test_bcc_wraps_above : stepsTo (code [0x90, 0x20] (regs 0x00 0x00 0x00 0xFF 0x00 0xFFF0))
    0x00 0x00 0x00 0xFF 0x00 0x0012 [] 0x0090 = true := by decide
theorem test_bcs_not_taken : stepsTo (code [0xB0, 0x05] (regs 0x00 0x00 0x00 0xFF 0x00 0x8000))
    0x00 0x00 0x00 0xFF 0x00 0x8002 [] 0x00B0 = true := by decide
theorem test_beq_not_taken : stepsTo (code [0xF0, 0xFC] (regs 0x00 0x00 0x00 0xFF 0xFD 0x8010))
    0x00 0x00 0x00 0xFF 0xFD 0x8012 [] 0x00F0 = true := by decide
theorem test_beq_largest_forward : stepsTo (code [0xF0, 0x7F] (regs 0x00 0x00 0x00 0xFF 0x02 0x8000))
    0x00 0x00 0x00 0xFF 0x02 0x8081 [] 0x00F0 = true := by decide
theorem test_bne_to_itself : stepsTo (code [0xD0, 0xFE] (regs 0x00 0x00 0x00 0xFF 0x00 0x8000))
    0x00 0x00 0x00 0xFF 0x00 0x8000 [] 0x00D0 = true := by decide
theorem test_bmi_not_taken : stepsTo (code [0x30, 0x05] (regs 0x00 0x00 0x00 0xFF 0x7F 0x8000))
    0x00 0x00 0x00 0xFF 0x7F 0x8002 [] 0x0030 = true := by decide
theorem test_bpl_wraps_below : stepsTo (code [0x10, 0x80] (regs 0x00 0x00 0x00 0xFF 0x00 0x0000))
    0x00 0x00 0x00 0xFF 0x00 0xFF82 [] 0x0010 = true := by decide
theorem test_bvc_taken : stepsTo (code [0x50, 0x05] (regs 0x00 0x00 0x00 0xFF 0xBF 0x8000))
    0x00 0x00 0x00 0xFF 0xBF 0x8007 [] 0x0050 = true := by decide
theorem test_bvs_taken : stepsTo (code [0x70, 0x05] (regs 0x00 0x00 0x00 0xFF 0x40 0x8000))
    0x00 0x00 0x00 0xFF 0x40 0x8007 [] 0x0070 = true := by decide
theorem test_clc : stepsTo (code [0x18] (regs 0x00 0x00 0x00 0xFF 0xFF 0x8000))
    0x00 0x00 0x00 0xFF 0xFE 0x8001 [] 0x0018 = true := by decide
theorem test_sec : stepsTo (code [0x38] (regs 0x00 0x00 0x00 0xFF 0x00 0x8000))
    0x00 0x00 0x00 0xFF 0x01 0x8001 [] 0x0038 = true := by decide
theorem test_cli : stepsTo (code [0x58] (regs 0x00 0x00 0x00 0xFF 0xFF 0x8000))
    0x00 0x00 0x00 0xFF 0xFB 0x8001 [] 0x0058 = true := by decide
theorem test_sei : stepsTo (code [0x78] (regs 0x00 0x00 0x00 0xFF 0x00 0x8000))
    0x00 0x00 0x00 0xFF 0x04 0x8001 [] 0x0078 = true := by decide
theorem test_cld : stepsTo (code [0xD8] (regs 0x00 0x00 0x00 0xFF 0xFF 0x8000))
    0x00 0x00 0x00 0xFF 0xF7 0x8001 [] 0x00D8 = true := by decide
theorem test_sed : stepsTo (code [0xF8] (regs 0x00 0x00 0x00 0xFF 0x00 0x8000))
    0x00 0x00 0x00 0xFF 0x08 0x8001 [] 0x00F8 = true := by decide
theorem test_clv : stepsTo (code [0xB8] (regs 0x00 0x00 0x00 0xFF 0xFF 0x8000))
    0x00 0x00 0x00 0xFF 0xBF 0x8001 [] 0x00B8 = true := by decide
theorem test_nop : stepsTo (code [0xEA] (regs 0x00 0x00 0x00 0xFF 0xA5 0x8000))
    0x00 0x00 0x00 0xFF 0xA5 0x8001 [] 0x00EA = true := by decide
theorem test_ill : stepsTo (code [0x02] (regs 0x01 0x02 0x03 0x7F 0xA5 0x8000))
    0x01 0x02 0x03 0x7F 0xA5 0x8000 [] 0x7FFF = true := by decide
theorem test_brk : stepsTo (code [0x00] (regs 0x01 0x00 0x00 0xFF 0x00 0x8000))
    0x01 0x00 0x00 0xFF 0x00 0x8000 [(0x01FF, 0x00)] 0x7FFF = true := by decide
theorem test_rti : stepsTo (poke [(0x01FD, 0xFF)] (code [0x40] (regs 0x00 0x00 0x00 0xFC 0x00 0x8000)))
    0x00 0x00 0x00 0xFC 0x00 0x8000 [(0x01FD, 0xFF)] 0x7FFF = true := by decide

/-- The operand bytes wrap at the top of memory (group M: `AD 00 02` at FFFE). -/
theorem test_fetch_wraps : stepsTo (poke [(0x0200, 0x99)] (code [0xAD, 0x00, 0x02] (regs 0x00 0x00 0x00 0xFF 0x00 0xFFFE)))
    0x99 0x00 0x00 0xFF 0x80 0x0001 [] 0x00AD = true := by decide

/-- The bus accesses of `91 40`, `STA ($40),Y`. 95_test_vectors.md, group L/S. -/
theorem test_bus_sta_indirectIndexedY :
    stepAccesses (poke [(0x0040, 0xF8), (0x0041, 0x02)] (code [0x91, 0x40] (regs 0xAA 0x00 0x10 0xFF 0x00 0x8000))) =
      [.read 0x8000, .read 0x8001, .read 0x0040, .read 0x0041, .read 0x0308, .write 0x0308 0xAA] := by decide

/-- The bus accesses of JSR include the read of its target. 95_test_vectors.md, group J. -/
theorem test_bus_jsr :
    stepAccesses (code [0x20, 0x34, 0x12] (regs 0x00 0x00 0x00 0x00 0x00 0x8000)) =
      [.read 0x8000, .read 0x8001, .read 0x8002, .read 0x1234, .write 0x0100 0x80, .write 0x01FF 0x03] := by decide

/-- What `withFetchWord` places is what the next step runs. -/
theorem test_withFetchWord : fetchInstr (State.reset.withFetchWord 24 0x1234AD) = .ldaAbsolute 0x1234 ∧
    fetchInstr (State.reset.withFetchWord 8 0x6C) = .jmpIndirect 0x0000 := by decide

/-! The host's requests. 95_test_vectors.md, group L. -/

theorem test_load_three_bytes :
    (loadRequest [0xA9, 0x05, 0xAA] State.reset).mem = [(0x8000, 0xA9), (0x8001, 0x05), (0x8002, 0xAA)] ∧
    loadReply [0xA9, 0x05, 0xAA] = .ok := by decide

theorem test_load_rewrites_the_vector :
    (loadRequest [] (poke [(0xFFFC, 0x34), (0xFFFD, 0x12)] State.reset)).mem = [] := by decide

/-- 32763 bytes are one too many. -/
theorem test_load_size_error : loadReply (List.replicate 32763 0xEA) = .sizeError ∧
    loadReply (List.replicate 32762 0xEA) = .ok := by
  constructor <;> rw [loadReply, List.length_replicate] <;> rfl

theorem test_reset_keeps_flags :
    resetRequest (poke [(0xFFFC, 0x00), (0xFFFD, 0x02)] (regs 0x11 0x22 0x33 0x44 0xC3 0x1234)) =
      poke [(0xFFFC, 0x00), (0xFFFD, 0x02)] (regs 0x00 0x00 0x00 0xFF 0xC3 0x0200) := by decide

/-- 70_reset_and_hazards.md R263: two bus reads, low byte first, and no write. -/
theorem test_reset_bus_calls : requestAccesses .reset State.reset = [.read 0xFFFC, .read 0xFFFD] := by decide

/-- 70_reset_and_hazards.md R266: the image in ascending order, then the vector. -/
theorem test_load_bus_calls : requestAccesses (.load [0xA9, 0x05]) State.reset =
    [.write 0x8000 0xA9, .write 0x8001 0x05, .write 0xFFFC 0x00, .write 0xFFFD 0x80] := by decide

/-- A bus whose byte read is the number of reads so far: the vector's low byte is the one read first. -/
theorem test_reset_on_a_bus_with_read_effects :
    let counting : BusOps Byte := { read := fun _ n => (n, n + 1), write := fun _ _ n => n }
    serveOn counting 0x00 .reset (registers (regs 0x11 0x22 0x33 0x44 0xC3 0x1234)) 0x05 =
      ((.none, registers (regs 0x00 0x00 0x00 0xFF 0xC3 0x0605)), 0x07) := by decide

/-- The canonical form: writing what an unlisted address reads as removes the entry. -/
theorem test_memory_canonical : (Memory.write [(0x0010, 0x77)] 0x0010 0x00) = [] ∧
    (Memory.write [] 0xFFFD 0x80) = [] ∧ (Memory.write [] 0xFFFD 0x00) = [(0xFFFD, 0x00)] := by decide

/-! Witnesses: for each statement with hypotheses, a state and operands that meet them all. -/

/-- The state the witnesses start from: `STA $8003` at 0x8000, A = 0xEA. -/
def sample : State := code [0x8D, 0x03, 0x80] (regs 0xEA 0x01 0x02 0xFF 0x00 0x8000)

theorem witness_DecodeOfEncodeIsTheInstruction :
    (Instr.ldaAbsolute 0xFFFF).wellFormed = true ∧ (Instr.ill 0xFF).wellFormed = true ∧
    decode (encode (.ldaAbsolute 0xFFFF) ++ [0xEA]) = .ok (.ldaAbsolute 0xFFFF, [0xEA]) := ⟨rfl, by decide, rfl⟩

theorem witness_StepRunsTheDecodedInstruction :
    decode [busRead sample sample.pc, busRead sample (sample.pc + 1), busRead sample (sample.pc + 2)] =
      .ok (.staAbsolute 0x8003, []) := rfl

theorem witness_StepKeepsMemoryCanonical : sample.wf ∧ ∃ t : State, step sample = .next t ∧ t.mem ≠ sample.mem :=
  ⟨by decide, _, rfl, by decide⟩

theorem witness_HostRequestsKeepMemoryCanonical :
    sample.wf ∧ ∃ t : State, serve (.write (.memory 0xFFFF 0x01)) sample = .next (.none, t) := ⟨by decide, _, rfl⟩

theorem witness_ExactlyTheRejectedBytes_illegal : busRead (code [0x02] State.reset) 0x8000 ∈ illegalOpcodes := by decide
theorem witness_ExactlyTheRejectedBytes_brk : busRead State.reset State.reset.pc = 0x00 := by decide
theorem witness_ExactlyTheRejectedBytes_rti : busRead (code [0x40] State.reset) 0x8000 = 0x40 := by decide

theorem witness_RejectedStepWritesNothing :
    (fetchInstr State.reset).mnemonic.rejected = true ∧ (fetchInstr (code [0xFF] sample)).mnemonic.rejected = true := by
  decide

theorem witness_ARejectionRepeatsForEver : ∃ run : Nat → State,
    (∀ k, step (run k) = .next (run (k + 1))) ∧ (fetchInstr (run 0)).mnemonic.rejected = true :=
  ⟨fun _ => State.reset.setAnswer (some .invalid), fun _ => by
    have h : fetchInstr (State.reset.setAnswer (some .invalid)) = .brk := by decide
    rw [step_eq_exec, h]
    rfl, by decide⟩

theorem witness_PcAdvancesByTheDefaultDelta :
    (Instr.tax.mnemonic ∉ [Mnemonic.jmp, .jsr, .rts, .bcc, .bcs, .beq, .bne, .bmi, .bpl, .bvc, .bvs] ∧
      Instr.tax.mnemonic ∉ [Mnemonic.brk, .rti, .ill] ∧ Instr.tax.operand.mode ∈ [Mode.implied, .accumulator]) ∧
    ((Instr.ldaImmediate 0x05).mnemonic = .lda ∧ (Instr.ldaImmediate 0x05).operand.mode = .immediate) ∧
    ((Instr.staAbsoluteY 0xFFFF).mnemonic = .sta ∧ (Instr.staAbsoluteY 0xFFFF).operand.mode = .absoluteY) := by decide

theorem witness_LoadsWriteRegisterZeroAndNegative :
    (Instr.ldaIndirectIndexedY 0xFF).mnemonic = .lda ∧ (Instr.ldxZeroPageY 0xFF).mnemonic = .ldx ∧
    (Instr.ldyAbsoluteX 0xFFFF).mnemonic = .ldy := by decide

theorem witness_StoresWriteOneByteAndNoFlag :
    (Instr.staIndexedIndirectX 0xFF).mnemonic = .sta ∧ (Instr.stxZeroPageY 0xFF).mnemonic = .stx ∧
    (Instr.styAbsolute 0xFFFF).mnemonic = .sty := by decide

theorem witness_LogicalOperationsWriteAccumulator :
    (Instr.andImmediate 0x80).mnemonic = .and ∧ (Instr.oraAbsoluteY 0xFFFF).mnemonic = .ora ∧
    (Instr.eorIndexedIndirectX 0xFF).mnemonic = .eor := by decide

theorem witness_BitTestsTheAndOfAccumulatorAndOperand : (Instr.bitAbsolute 0x0200).mnemonic = .bit := by decide

/-- For AdcAddsOperandAndCarry and OverflowIsTheSignedRangeAndSbcSubtracts. -/
theorem witness_AdcStatements : (Instr.adcImmediate 0x7F).mnemonic = .adc ∧ (Instr.adcZeroPageX 0xFF).mnemonic = .adc := by
  decide

/-- For SbcAddsTheComplementAndCarry and OverflowIsTheSignedRangeAndSbcSubtracts. -/
theorem witness_SbcStatements : (Instr.sbcImmediate 0x80).mnemonic = .sbc ∧ (Instr.sbcAbsolute 0x0200).mnemonic = .sbc := by
  decide

theorem witness_SbcUndoesAdcWithTheComplementedCarry : ∃ t w : State,
    exec (.adcImmediate 0x16) sample = .next t ∧ w.a = t.a ∧ w.flags.c = !sample.flags.c :=
  ⟨_, regs 0x00 0x00 0x00 0xFF 0x01 0x8000, rfl, by decide, by decide⟩

theorem witness_ComparesUseTheirOwnRegister :
    (Instr.cmpImmediate 0xFF).mnemonic = .cmp ∧ (Instr.cpxAbsolute 0x0200).mnemonic = .cpx ∧
    (Instr.cpyZeroPage 0x10).mnemonic = .cpy := by decide

theorem witness_IncAndDecWriteMemoryBack :
    (Instr.incZeroPageX 0xFF).mnemonic = .inc ∧ (Instr.decAbsoluteX 0xFFFF).mnemonic = .dec := by decide

theorem witness_ShiftsAndRotatesOnMemory :
    ((Instr.aslZeroPage 0x10).mnemonic = .asl ∧ (Instr.aslZeroPage 0x10).operand ≠ .accumulator) ∧
    ((Instr.lsrAbsoluteX 0xFFFF).mnemonic = .lsr ∧ (Instr.lsrAbsoluteX 0xFFFF).operand ≠ .accumulator) ∧
    ((Instr.rolZeroPageX 0xFF).mnemonic = .rol ∧ (Instr.rolZeroPageX 0xFF).operand ≠ .accumulator) ∧
    ((Instr.rorAbsolute 0x0200).mnemonic = .ror ∧ (Instr.rorAbsolute 0x0200).operand ≠ .accumulator) := by decide

theorem witness_JsrThenRtsResumesAfterTheCall : ∃ t w : State, exec (.jsr 0x9000) sample = .next t ∧ w.sp = t.sp ∧
    busRead w (stackAddress sample.sp) = busRead t (stackAddress sample.sp) ∧
    busRead w (stackAddress (sample.sp - 1)) = busRead t (stackAddress (sample.sp - 1)) :=
  ⟨_, _, rfl, rfl, rfl, rfl⟩

/-- Each flag is changed by some instruction. -/
theorem witness_OnlyTheListedInstructionsWriteEachFlag :
    (∃ t, exec .sec sample = .next t ∧ t.flags.c ≠ sample.flags.c) ∧
    (∃ t, exec (.ldaImmediate 0x00) sample = .next t ∧ t.flags.z ≠ sample.flags.z) ∧
    (∃ t, exec (.ldaImmediate 0x80) sample = .next t ∧ t.flags.n ≠ sample.flags.n) ∧
    (∃ t, exec (.bitAbsolute 0x8001) (sample.setMem [(0x8001, 0x40)]) = .next t ∧ t.flags.v ≠ sample.flags.v) ∧
    (∃ t, exec .sei sample = .next t ∧ t.flags.i ≠ sample.flags.i) ∧
    (∃ t, exec .sed sample = .next t ∧ t.flags.d ≠ sample.flags.d) ∧
    (∃ t, exec .plp (sample.setMem [(0x0100, 0x30)]) = .next t ∧ t.flags.b ≠ sample.flags.b ∧
      t.flags.u ≠ sample.flags.u) :=
  ⟨⟨_, rfl, by decide⟩, ⟨_, rfl, by decide⟩, ⟨_, rfl, by decide⟩, ⟨_, rfl, by decide⟩, ⟨_, rfl, by decide⟩,
    ⟨_, rfl, by decide⟩, ⟨_, rfl, by decide⟩⟩

/-- Each register is changed by some instruction. -/
theorem witness_OnlyTheListedInstructionsWriteEachRegister :
    (∃ t, exec .txa sample = .next t ∧ t.a ≠ sample.a) ∧ (∃ t, exec .rorAccumulator sample = .next t ∧ t.a ≠ sample.a) ∧
    (∃ t, exec .inx sample = .next t ∧ t.x ≠ sample.x) ∧ (∃ t, exec .dey sample = .next t ∧ t.y ≠ sample.y) ∧
    (∃ t, exec .pha sample = .next t ∧ t.sp ≠ sample.sp) :=
  ⟨⟨_, rfl, by decide⟩, ⟨_, rfl, by decide⟩, ⟨_, rfl, by decide⟩, ⟨_, rfl, by decide⟩, ⟨_, rfl, by decide⟩⟩

theorem witness_FormsThatStoreNothingLeaveMemory :
    (∃ t, exec .aslAccumulator sample = .next t ∧ Instr.aslAccumulator.operand = .accumulator) ∧
    (∃ t, exec (.ldaAbsolute 0x8000) sample = .next t ∧ (Instr.ldaAbsolute 0x8000).mnemonic ∉
      [Mnemonic.sta, .stx, .sty, .inc, .dec, .asl, .lsr, .rol, .ror, .pha, .php, .jsr]) :=
  ⟨⟨_, rfl, rfl⟩, ⟨_, rfl, by decide⟩⟩

theorem witness_MemoryFormsStoreOnlyAtTheirAddress :
    (∃ t, exec (.staAbsoluteX 0xFFFF) sample = .next t ∧ (Instr.staAbsoluteX 0xFFFF).operand = .memory (.absoluteX 0xFFFF) ∧
      (0xFFFF : Addr) ≠ effectiveAddress (.absoluteX 0xFFFF) sample) ∧
    (∃ t, exec (.stxZeroPage 0x10) sample = .next t ∧ (Instr.stxZeroPage 0x10).operand = .memory (.zeroPage 0x10)) ∧
    (∃ t, exec (.styZeroPage 0x10) sample = .next t ∧ (Instr.styZeroPage 0x10).operand = .memory (.zeroPage 0x10)) ∧
    (∃ t, exec (.incZeroPage 0xFF) sample = .next t ∧ (Instr.incZeroPage 0xFF).operand = .memory (.zeroPage 0xFF)) ∧
    (∃ t, exec (.rolAbsolute 0x0000) sample = .next t ∧ (Instr.rolAbsolute 0x0000).operand = .memory (.absolute 0x0000)) :=
  ⟨⟨_, rfl, rfl, by decide⟩, ⟨_, rfl, rfl⟩, ⟨_, rfl, rfl⟩, ⟨_, rfl, rfl⟩, ⟨_, rfl, rfl⟩⟩

theorem witness_StackStoresStayOnTheStackPage :
    (∃ t, exec .pha sample = .next t ∧ (0x0100 : Addr) ≠ stackAddress sample.sp) ∧
    (∃ t, exec (.jsr 0x9000) sample = .next t ∧ (0x01FD : Addr) ≠ stackAddress sample.sp ∧
      (0x01FD : Addr) ≠ stackAddress (sample.sp - 1)) ∧
    (0x00FF : Addr).toNat < 0x0100 ∧ 0x01FF < (0x0200 : Addr).toNat :=
  ⟨⟨_, rfl, by decide⟩, ⟨_, rfl, by decide, by decide⟩, by decide, by decide⟩

theorem witness_StorageFlagsInfluenceNothingButPhp : (Instr.adcImmediate 0x01).mnemonic ≠ .php := by decide

theorem witness_MemoryModesReadTheirOperand :
    ((fetchInstr sample).operand = .memory (.absolute 0x8003) ∧ (fetchInstr sample).mnemonic.rejected = false) ∧
    fetchInstr (code [0x6C, 0xFF, 0x12] sample) = .jmpIndirect 0x12FF := by decide

/-- For MemoryChangesByTheStepsBusWrites: a step that does change memory. -/
theorem witness_MemoryChangesByTheStepsBusWrites : ∃ t, step sample = .next t ∧ t.mem ≠ sample.mem :=
  ⟨_, rfl, by decide⟩

theorem witness_StoresIntoCodeAreFetched : ∃ t, exec (.staAbsolute 0x8003) sample = .next t ∧
    t.pc = effectiveAddress (.absolute 0x8003) sample ∧ fetchInstr t = .nop := ⟨_, rfl, by decide, by decide⟩

/-- The two clauses of LoadWritesTheImageAndTheVectorOrNothing, where they meet, and the addresses of the first. -/
theorem witness_LoadWritesTheImageAndTheVectorOrNothing :
    (List.replicate 32762 (0xEA : Byte)).length ≤ 32762 ∧ 32762 < (List.replicate 32763 (0xEA : Byte)).length ∧
    (0xFFFA : Addr).toNat ≥ 0x8000 + (List.replicate 32762 (0xEA : Byte)).length ∧ (0x7FFF : Addr).toNat < 0x8000 := by
  rw [List.length_replicate, List.length_replicate]
  decide

/-- How a run of the loop ends, if it does. -/
def endOf (o : Host.Outcome RunEnd Fault Refusal) : Option RunEnd :=
  match o with
  | .next e => some e
  | _ => none

/-- Both ends of RunLoopEndsAtTheFirstRejectedStep: NOP then BRK, bounded by two steps and by one. -/
theorem witness_RunLoopEndsAtTheFirstRejectedStep :
    (endOf (runLoop 2 0 (code [0xEA] State.reset)) =
      some (.rejected 1 ((code [0xEA] State.reset).setPc 0x8001 |>.setAnswer (some .invalid)))) ∧
    (endOf (runLoop 1 0 (code [0xEA] State.reset)) =
      some (.bound ((code [0xEA] State.reset).setPc 0x8001 |>.setAnswer (some (.executed 0xEA))))) := by decide

theorem witness_BootSequenceReachesTheImage : (List.replicate 32761 (0xEA : Byte)).length < 32762 := by
  rw [List.length_replicate]
  decide

end Sys2Proof.Tests
end

section
/-! PROOF. The opcode table's entry against the instruction decoded from the same opcode byte and any operand bytes. -/

namespace Sys2Proof

/-- The table entry of opcode byte `op` when its row is that of `i` (`lookup_eq_rowEntry`). 30_encoding.md R83. -/
def rowEntry (op : Byte) (i : Instr) : Entry :=
  { opcode := op, mnemonic := i.mnemonic, mode := i.operand.mode, managesPc := i.mnemonic.managesPc,
    reject := i.mnemonic.rejected, cls := i.opcodeClass }

/-- Two readings of the opcode map that agree entry by entry agree on what every opcode byte decodes to. -/
theorem apply_decodeInstr_congr {α : Type} {f g : Instr → α} {op b1 b2 c1 c2 : Byte}
    (hmap : (opcodeMap op b1 (hiLo b2 b1)).map (List.map f) = (opcodeMap op c1 (hiLo c2 c1)).map (List.map g))
    (hill : f (.ill op) = g (.ill op)) : f (decodeInstr op b1 b2) = g (decodeInstr op c1 c2) := by
  rw [decodeInstr, ← List.getD_map (f := f), ← List.getD_map (f := List.map f), List.map_nil, hmap, hill,
    ← List.map_nil (f := g), List.getD_map, List.getD_map, decodeInstr]

/-- The table's entry is the row of the decoded instruction, whatever the operand bytes. 30_encoding.md R84. -/
theorem lookup_eq_rowEntry (op b1 b2 : Byte) : lookup op = rowEntry op (decodeInstr op b1 b2) :=
  apply_decodeInstr_congr (f := rowEntry op) (b1 := 0) (b2 := 0) rfl rfl

end Sys2Proof

namespace Sys2Proof.Machine

/-- The mode of the table's entry assembles the operand bytes to the decoded instruction's operand.
30_encoding.md R82, R85 to R88. -/
theorem operandOf_lookup_mode (op b1 b2 : Byte) :
    operandOf (lookup op).mode b1 b2 = (decodeInstr op b1 b2).operand :=
  apply_decodeInstr_congr (f := fun i => operandOf i.operand.mode b1 b2) (b1 := 0) (b2 := 0) rfl rfl

/-- The entry of the opcode byte at PC is the row of the instruction fetched. -/
theorem lookup_at_pc (s : State) : lookup (busRead s s.pc) = rowEntry (busRead s s.pc) (fetchInstr s) :=
  lookup_eq_rowEntry _ _ _

theorem rowEntry_mode_length (op : Byte) (i : Instr) : (rowEntry op i).mode.length = i.length := rfl

theorem operandOf_at_pc (s : State) :
    operandOf (rowEntry (busRead s s.pc) (fetchInstr s)).mode (busRead s (s.pc + 1)) (busRead s (s.pc + 2)) =
      (fetchInstr s).operand := by
  rw [← lookup_at_pc]
  exact operandOf_lookup_mode _ _ _

end Sys2Proof.Machine
end

section
/-! PROOF. What every meaning does, said once: it rejects, or it runs the handler of its mnemonic on the resolved
context and then the PC policy of its row. -/

namespace Sys2Proof.Machine

/-- BRK, RTI and ILL change nothing but the answer. 60_exceptions.md R240 to R243. -/
theorem exec_of_rejected {i : Instr} (h : i.mnemonic.rejected = true) (s : State) :
    exec i s = .next (s.setAnswer (some .invalid)) := by
  cases i with
  | brk | rti | ill => rfl
  | _ => cases h

/-- Every other row's meaning is steps 2 to 5 of the spec's pseudocode. 40_step_and_addressing.md R101. -/
theorem exec_of_not_rejected {i : Instr} (h : i.mnemonic.rejected = false) (op : Byte) (s : State) :
    ∃ t : State, handler i.mnemonic i.operand.mode (resolve i.operand s) s = some t ∧
      exec i s = .next ((applyPcPolicy (rowEntry op i) t).setAnswer (some (.executed i.opcode))) := by
  cases i with
  | brk | rti | ill => cases h
  | _ => exact ⟨_, rfl, rfl⟩

@[simp] theorem applyPcPolicy_mem (e : Entry) (t : State) : (applyPcPolicy e t).mem = t.mem := by
  unfold applyPcPolicy
  split <;> rfl

/-- The PC policy looks at the registers alone. -/
theorem registers_applyPcPolicy (e : Entry) (t : State) :
    registers (applyPcPolicy e t) = (registers t).apply (applyPcPolicy e) := by
  unfold Registers.apply applyPcPolicy
  split <;> rfl

end Sys2Proof.Machine
end

section
/-! PROOF. The step's program of bus calls on flat RAM, part by part: what each part hands on, and the calls it makes.
20_memory.md R62. -/

namespace Sys2Proof.Machine

variable {α : Type}

/-! Items 2 and 3: the operand bytes. -/

theorem runOn_operandProgram_flatRam (mode : Mode) (k : Operand → BusProgram α) (s : State) :
    (operandProgram mode (registers s) k).runOn flatRam s.mem =
      (k (operandOf mode (busRead s (s.pc + 1)) (busRead s (s.pc + 2)))).runOn flatRam s.mem := by
  cases mode <;> rfl

theorem callsOn_operandProgram_flatRam (mode : Mode) (k : Operand → BusProgram α) (s : State) :
    (operandProgram mode (registers s) k).callsOn flatRam s.mem = operandByteReads mode.length s ++
      (k (operandOf mode (busRead s (s.pc + 1)) (busRead s (s.pc + 2)))).callsOn flatRam s.mem := by
  cases mode <;> rfl

/-! Items 4 and 5: the pointer and the operand read. -/

theorem runOn_addressProgram_flatRam (m : MemOperand) (k : Addr → BusProgram α) (s : State) :
    (addressProgram m (registers s) k).runOn flatRam s.mem = (k (effectiveAddress m s)).runOn flatRam s.mem := by
  cases m <;> rfl

theorem callsOn_addressProgram_flatRam (m : MemOperand) (k : Addr → BusProgram α) (s : State) :
    (addressProgram m (registers s) k).callsOn flatRam s.mem =
      pointerReads (.memory m) s ++ (k (effectiveAddress m s)).callsOn flatRam s.mem := by
  cases m <;> rfl

theorem runOn_contextProgram_flatRam (o : Operand) (k : Context → BusProgram α) (s : State) :
    (contextProgram o (registers s) k).runOn flatRam s.mem = (k (resolve o s)).runOn flatRam s.mem := by
  cases o with
  | memory m => exact runOn_addressProgram_flatRam m _ s
  | _ => rfl

theorem callsOn_contextProgram_flatRam (o : Operand) (k : Context → BusProgram α) (s : State) :
    (contextProgram o (registers s) k).callsOn flatRam s.mem =
      pointerReads o s ++ operandRead o s ++ (k (resolve o s)).callsOn flatRam s.mem := by
  cases o with
  | memory m =>
    rw [List.append_assoc]
    exact callsOn_addressProgram_flatRam m _ s
  | _ => rfl

/-! Item 6: the handler. -/

/-- A handler writes the bus only where the program does, and its effect on the registers looks at no byte of memory but
the context's and, in PLA, PLP and RTS, the ones the program reads. -/
theorem runOn_handlerProgram_flatRam (op : Byte) {i : Instr} {s t : State}
    (h : handler i.mnemonic i.operand.mode (resolve i.operand s) s = some t) :
    (handlerProgram (rowEntry op i) (resolve i.operand s) (registers s)).runOn flatRam s.mem =
      (registers t, t.mem) := by
  cases i with
  | brk | rti | ill => cases h
  | _ => cases h; rfl

/-- The calls of the handler's program are the listed accesses. 20_memory.md R59. -/
theorem callsOn_handlerProgram_flatRam (op : Byte) (i : Instr) (s : State) :
    (handlerProgram (rowEntry op i) (resolve i.operand s) (registers s)).callsOn flatRam s.mem =
      handlerAccesses i s := by
  cases i <;> rfl

/-! The whole step, rejected and executed. -/

/-- The step's program after the opcode byte is read: what `stepProgram` goes on with for `lookup`'s entry
(`runOn_stepProgram_flatRam`, `callsOn_stepProgram_flatRam`). -/
def afterOpcode (r : Registers) (opcode : Byte) (e : Entry) : BusProgram (StepResult × Registers) :=
  if e.reject then .done (.invalid, r)
  else
    operandProgram e.mode r fun o => contextProgram o r fun ctx =>
      (handlerProgram e ctx r).andThen fun after => .done (.executed opcode, after.apply (applyPcPolicy e))

theorem runOn_stepProgram_flatRam (s : State) :
    (stepProgram (registers s)).runOn flatRam s.mem =
      (afterOpcode (registers s) (busRead s s.pc) (rowEntry (busRead s s.pc) (fetchInstr s))).runOn flatRam s.mem := by
  rw [← lookup_at_pc]
  rfl

theorem callsOn_stepProgram_flatRam (s : State) :
    (stepProgram (registers s)).callsOn flatRam s.mem = .read s.pc ::
      (afterOpcode (registers s) (busRead s s.pc)
        (rowEntry (busRead s s.pc) (fetchInstr s))).callsOn flatRam s.mem := by
  rw [← lookup_at_pc]
  rfl

theorem afterOpcode_of_rejected {i : Instr} (h : i.mnemonic.rejected = true) (r : Registers) (op : Byte) :
    afterOpcode r op (rowEntry op i) = .done (.invalid, r) :=
  if_pos h

theorem afterOpcode_of_not_rejected {i : Instr} (h : i.mnemonic.rejected = false) (r : Registers) (op : Byte) :
    afterOpcode r op (rowEntry op i) =
      operandProgram (rowEntry op i).mode r fun o => contextProgram o r fun ctx =>
        (handlerProgram (rowEntry op i) ctx r).andThen fun after =>
          .done (.executed op, after.apply (applyPcPolicy (rowEntry op i))) :=
  if_neg (Bool.eq_false_iff.mp h)

/-- A rejected step's one bus access is the opcode read. 60_exceptions.md R240, R241. -/
theorem stepProgram_flatRam_of_rejected {s : State} (h : (fetchInstr s).mnemonic.rejected = true) :
    (stepProgram (registers s)).runOn flatRam s.mem = ((stepResult s, registers s), s.mem) ∧
    (stepProgram (registers s)).callsOn flatRam s.mem = stepAccesses s := by
  rw [runOn_stepProgram_flatRam, callsOn_stepProgram_flatRam, afterOpcode_of_rejected h, stepResult, stepAccesses,
    if_pos h, if_pos h]
  exact ⟨rfl, rfl⟩

/-- An executed step resolves, handles and advances PC. 40_step_and_addressing.md R101. -/
theorem stepProgram_flatRam_of_not_rejected {s t : State} (h : (fetchInstr s).mnemonic.rejected = false)
    (ht : handler (fetchInstr s).mnemonic (fetchInstr s).operand.mode (resolve (fetchInstr s).operand s) s = some t) :
    (stepProgram (registers s)).runOn flatRam s.mem =
      ((stepResult s, registers (applyPcPolicy (rowEntry (busRead s s.pc) (fetchInstr s)) t)),
        (applyPcPolicy (rowEntry (busRead s s.pc) (fetchInstr s)) t).mem) ∧
    (stepProgram (registers s)).callsOn flatRam s.mem = stepAccesses s := by
  have hr : ¬ (fetchInstr s).mnemonic.rejected = true := Bool.eq_false_iff.mp h
  constructor
  · rw [runOn_stepProgram_flatRam, afterOpcode_of_not_rejected h, runOn_operandProgram_flatRam, operandOf_at_pc,
      runOn_contextProgram_flatRam, BusProgram.runOn_andThen, runOn_handlerProgram_flatRam _ ht, stepResult, if_neg hr,
      registers_applyPcPolicy, applyPcPolicy_mem]
    rfl
  · rw [callsOn_stepProgram_flatRam, afterOpcode_of_not_rejected h, callsOn_operandProgram_flatRam, operandOf_at_pc,
      callsOn_contextProgram_flatRam, BusProgram.callsOn_andThen, callsOn_handlerProgram_flatRam, stepAccesses,
      if_neg hr]
    simp only [BusProgram.callsOn, List.append_nil, List.append_assoc, rowEntry_mode_length]

/-- Settles O9: a rejected step is its opcode read; an executed one is the parts of the program in their order, each of
which hands on what the machine's own resolver, handler and PC policy give. -/
theorem stepIsItsBusProgramOnFlatRam : Obligations.StepIsItsBusProgramOnFlatRam := by
  unfold Obligations.StepIsItsBusProgramOnFlatRam
  intro s
  cases h : (fetchInstr s).mnemonic.rejected with
  | true => exact ⟨_, exec_of_rejected h s, stepProgram_flatRam_of_rejected h⟩
  | false =>
    obtain ⟨t, ht, hexec⟩ := exec_of_not_rejected h (busRead s s.pc) s
    exact ⟨_, hexec, stepProgram_flatRam_of_not_rejected h ht⟩

end Sys2Proof.Machine
end

section
/-! PROOF. Power-on initialisation and the reset request. -/

namespace Sys2Proof.Machine

/-- Every byte of the power-on memory is 0 but the high byte of the reset vector. 70_reset_and_hazards.md R261. -/
theorem busRead_reset (p : Addr) : busRead State.reset p = if p = 0xFFFD then 0x80 else 0x00 := by
  have hp : p = 0xFFFD ↔ p.toNat = Config.resetVector.toNat + 1 := by
    rw [← BitVec.toNat_inj]
    rfl
  have hlow : lowByte Config.loadBase = 0x00 := rfl
  have hhigh : highByte Config.loadBase = 0x80 := rfl
  change unlistedByte p.toNat = _
  simp only [unlistedByte, hp, hlow, hhigh, ite_self]

/-- With nothing loaded, what is fetched after power-on is BRK. -/
theorem fetchInstr_reset : fetchInstr State.reset = .brk := by decide

/-- Settles O57: every clause but the memory contents and the first step is what the definitions of the two requests
say. -/
theorem powerOnAndResetStates : Obligations.PowerOnAndResetStates := by
  unfold Obligations.PowerOnAndResetStates
  intro s
  have hstep : step State.reset = .next (State.reset.setAnswer (some .invalid)) := by
    rw [step_eq_exec, fetchInstr_reset]
    exact exec_of_rejected rfl State.reset
  exact ⟨rfl, rfl, rfl, rfl, rfl, rfl, rfl, busRead_reset, hstep, rfl, rfl, fun _ _ _ _ => ⟨rfl, rfl⟩⟩

end Sys2Proof.Machine
end

section
/-! PROOF. The packed flags and the stack: what PHP, PLA and PLP do, and what PHA, PHP and JSR leave alone. -/

namespace Sys2Proof.Machine

/-! The packed byte. -/

/-- The packed byte as a binary numeral, its lowest bit C. 10_state.md R31. -/
theorem pack_eq_bits (f : Flags) :
    pack f = BitVec.ofNat 8 (Nat.bit f.c (Nat.bit f.z (Nat.bit f.i (Nat.bit f.d (Nat.bit f.b (Nat.bit f.u
      (Nat.bit f.v (Nat.bit f.n 0)))))))) := by
  rw [pack]
  congr 1
  simp only [Nat.bit_val]
  ring

theorem unpack_pack (f : Flags) : unpack (pack f) = f := by
  simp only [unpack, pack_eq_bits, BitVec.getLsbD_ofNat, Nat.testBit_bit_succ, Nat.testBit_bit_zero]
  rfl

/-- Every bit of a byte is one of the flags it unpacks to. 10_state.md R32. -/
theorem unpack_injective : Function.Injective unpack := by
  intro p q h
  obtain ⟨hc, hz, hi, hd, hb, hu, hv, hn⟩ := Flags.mk.inj h
  apply BitVec.eq_of_getLsbD_eq
  intro k hk
  interval_cases k <;> assumption

theorem pack_unpack (p : Byte) : pack (unpack p) = p :=
  unpack_injective (unpack_pack (unpack p))

/-! The stack page. 10_state.md R21. -/

theorem toNat_stackAddress (sp : Byte) : (stackAddress sp).toNat = 0x0100 + sp.toNat :=
  toNat_hiLo Config.stackPage sp

theorem ne_stackAddress_of_outside_page {q : Addr} (h : q.toNat < 0x0100 ∨ 0x01FF < q.toNat) (sp : Byte) :
    q ≠ stackAddress sp := by
  rintro rfl
  have hsp := sp.isLt
  rw [toNat_stackAddress] at h
  omega

theorem busRead_push_of_ne {q : Addr} {s : State} (h : q ≠ stackAddress s.sp) (v : Byte) :
    busRead (push s v) q = busRead s q := by
  rw [busRead_push, if_neg h]

/-- The byte pulled after a push is the byte pushed. 42_transfer_stack.md R150, R151. -/
theorem popByte_push (s : State) (v : Byte) : popByte (push s v) = v := by
  rw [popByte, push_sp, BitVec.sub_add_cancel, busRead_push, if_pos rfl]

/-! The instructions. -/

/-- Settles O29: each meaning is the shared push, load or pull, completed with the length 1. -/
theorem flagPushAndPulls : Obligations.FlagPushAndPulls := by
  unfold Obligations.FlagPushAndPulls
  exact fun s => ⟨rfl, rfl, rfl⟩

theorem exec_php (s : State) :
    exec .php s = .next (((push s (pack s.flags)).setPc (s.pc + 1)).setAnswer (some (.executed 0x08))) := rfl

theorem exec_plp (s : State) : exec .plp s =
    .next ((((popped s).setFlags (unpack (popByte s))).setPc (s.pc + 1)).setAnswer (some (.executed 0x28))) := rfl

/-- Settles O30: PHP's completion writes neither SP nor memory, so PLP pulls what PHP pushed. -/
theorem packAndUnpackAreInverse : Obligations.PackAndUnpackAreInverse := by
  unfold Obligations.PackAndUnpackAreInverse
  refine ⟨unpack_pack, pack_unpack, fun s => ⟨_, _, exec_php s, exec_plp _, ?_⟩⟩
  have hpull (pc : Addr) (r : Option StepResult) :
      popByte (((push s (pack s.flags)).setPc pc).setAnswer r) = pack s.flags :=
    popByte_push s (pack s.flags)
  simp [hpull, unpack_pack]

theorem eq_of_mnemonic_mem_stackStores {i : Instr} (h : i.mnemonic ∈ [Mnemonic.pha, .php, .jsr]) :
    i = .pha ∨ i = .php ∨ ∃ target : Addr, i = .jsr target := by
  cases i with
  | pha => exact .inl rfl
  | php => exact .inr (.inl rfl)
  | jsr target => exact .inr (.inr ⟨target, rfl⟩)
  | _ => simp [Instr.mnemonic] at h

/-- PHA and PHP push one byte, JSR two; beyond that they write PC and the answer. 20_memory.md R65. -/
theorem exec_stackStore_pushes {i : Instr} {s t : State} (h : exec i s = .next t)
    (hi : i.mnemonic ∈ [Mnemonic.pha, .php, .jsr]) : ∃ (v : Byte) (pc : Addr) (r : StepResult),
      t = ((push s v).setPc pc).setAnswer (some r) ∨
      i.mnemonic = .jsr ∧ ∃ w : Byte, t = ((push (push s v) w).setPc pc).setAnswer (some r) := by
  obtain rfl | rfl | ⟨target, rfl⟩ := eq_of_mnemonic_mem_stackStores hi
  · cases h; exact ⟨s.a, _, _, .inl rfl⟩
  · cases h; exact ⟨pack s.flags, _, _, .inl rfl⟩
  · cases h; exact ⟨_, target, _, .inr ⟨rfl, _, rfl⟩⟩

/-- Settles O52: the pushes of the instruction write its stack slots, and an address off the stack page is none. -/
theorem stackStoresStayOnTheStackPage : Obligations.StackStoresStayOnTheStackPage := by
  unfold Obligations.StackStoresStayOnTheStackPage
  intro i s t q h hi
  have hslots : q ≠ stackAddress s.sp → (i.mnemonic = .jsr → q ≠ stackAddress (s.sp - 1)) →
      busRead t q = busRead s q := by
    intro hq hq'
    obtain ⟨v, pc, r, rfl | ⟨hjsr, w, rfl⟩⟩ := exec_stackStore_pushes h hi
    · exact busRead_push_of_ne hq v
    · exact (busRead_push_of_ne (s := push s v) (hq' hjsr) w).trans (busRead_push_of_ne hq v)
  have hframe : t.a = s.a ∧ t.x = s.x ∧ t.y = s.y ∧ t.flags = s.flags := by
    obtain ⟨v, pc, r, rfl | ⟨hjsr, w, rfl⟩⟩ := exec_stackStore_pushes h hi <;> simp
  exact ⟨hslots,
    fun hq => hslots (ne_stackAddress_of_outside_page hq _) fun _ => ne_stackAddress_of_outside_page hq _, hframe⟩

end Sys2Proof.Machine
end

section
/-! PROOF. What no step looks at: the answer, and, but for PHP, the flags I, D, B and U. 10_state.md R29, R38. -/

namespace Sys2Proof.Machine

/-- Every meaning writes the answer and reads none. -/
theorem exec_setAnswer (i : Instr) (s : State) (r : Option StepResult) : exec i (s.setAnswer r) = exec i s := by
  cases i <;> rfl

/-- Settles O13: the fetch looks at PC and memory, so the same instruction runs. -/
theorem theAnswerIsNeverRead : Obligations.TheAnswerIsNeverRead := by
  unfold Obligations.TheAnswerIsNeverRead
  intro s r
  have hfetch : fetchInstr (s.setAnswer r) = fetchInstr s := rfl
  rw [step_eq_exec, step_eq_exec, hfetch, exec_setAnswer]

/-- `s` with the four flags that are storage only taken from `f`: the second of the two states that
Obligations.StorageFlagsInfluenceNothingButPhp compares. 10_state.md R29. -/
def State.withStorage (s : State) (f : Flags) : State :=
  s.setFlags { s.flags with i := f.i, d := f.d, b := f.b, u := f.u }

/-- Two runs that differ in the storage flags end in states that differ in them alone. An instruction passes the given
ones on, but for PLP, which unpacks all eight, and the four that set or clear I or D. -/
theorem exec_withStorage {i : Instr} (hi : i.mnemonic ≠ .php) (s : State) (f : Flags) :
    ∃ (t : State) (g : Flags), exec i s = .next t ∧ exec i (s.withStorage f) = .next (t.withStorage g) := by
  cases i with
  | php => exact absurd rfl hi
  | plp => exact ⟨_, unpack (popByte s), rfl, rfl⟩
  | sei => exact ⟨_, { f with i := true }, rfl, rfl⟩
  | cli => exact ⟨_, { f with i := false }, rfl, rfl⟩
  | sed => exact ⟨_, { f with d := true }, rfl, rfl⟩
  | cld => exact ⟨_, { f with d := false }, rfl, rfl⟩
  | _ => exact ⟨_, f, rfl, rfl⟩

/-- Settles O53: no compared field is a storage flag. -/
theorem storageFlagsInfluenceNothingButPhp : Obligations.StorageFlagsInfluenceNothingButPhp := by
  unfold Obligations.StorageFlagsInfluenceNothingButPhp
  intro i s f hi
  obtain ⟨t, g, ht, ht'⟩ := exec_withStorage hi s f
  exact ⟨t, t.withStorage g, ht, ht', rfl, rfl, rfl, rfl, rfl, rfl, rfl, rfl, rfl, rfl, rfl⟩

end Sys2Proof.Machine
end

section
/-! PROOF. What a handler can write, said once: `HandlerEffect`, and that every meaning has the effect of its mnemonic's
handler. What each flag and each register is written by follows from it. 10_state.md R23, R28. -/

namespace Sys2Proof.Machine

/-! What a handler that answers has read of its context. 40_step_and_addressing.md R127, R129. -/

section
variable {mode : Mode} {ctx : Context} {s t : State}

theorem exists_of_withOperand {op : Byte → State → State} (h : withOperand ctx op s = some t) :
    ∃ v, ctx.operand = some v ∧ op v s = t := by
  unfold withOperand at h
  split at h
  · exact ⟨_, ‹_›, Option.some.inj h⟩
  · cases h

theorem exists_of_withAddress {op : Addr → State → State} (h : withAddress ctx op s = some t) :
    ∃ p, ctx.address = some p ∧ op p s = t := by
  unfold withAddress at h
  split at h
  · exact ⟨_, ‹_›, Option.some.inj h⟩
  · cases h

theorem exists_of_withBoth {op : Addr → Byte → State → State} (h : withBoth ctx op s = some t) :
    ∃ p v, ctx.address = some p ∧ ctx.operand = some v ∧ op p v s = t := by
  unfold withBoth at h
  split at h
  · exact ⟨_, _, ‹_›, ‹_›, Option.some.inj h⟩
  · cases h

theorem exists_of_withOffset {op : Byte → State → State} (h : withOffset ctx op s = some t) :
    ∃ v, ctx.offset = some v ∧ op v s = t := by
  unfold withOffset at h
  split at h
  · exact ⟨_, ‹_›, Option.some.inj h⟩
  · cases h

theorem accumulator_or_memory_of_shiftHandler {onA : State → State} {onMemory : Addr → Byte → State → State}
    (h : shiftHandler mode ctx onA onMemory s = some t) :
    (mode = .accumulator ∧ onA s = t) ∨
      ∃ p v, ctx.address = some p ∧ ctx.operand = some v ∧ onMemory p v s = t := by
  unfold shiftHandler at h
  split at h
  · exact .inl ⟨‹_›, Option.some.inj h⟩
  · exact .inr (exists_of_withBoth h)

end

/-- The states a mnemonic's handler can leave, `mode` and `ctx` being what it is given. The rejected mnemonics, which
have no handler, leave the state as NOP does. -/
inductive HandlerEffect (mode : Mode) (ctx : Context) (s : State) : Mnemonic → State → Prop
  | nothing {m : Mnemonic} (hm : m ∈ [Mnemonic.nop, .brk, .rti, .ill]) : HandlerEffect mode ctx s m s
  | loadsA {m : Mnemonic} (hm : m ∈ [Mnemonic.lda, .txa, .tya, .and, .ora, .eor]) (v : Byte) :
      HandlerEffect mode ctx s m (loadA v s)
  | loadsX {m : Mnemonic} (hm : m ∈ [Mnemonic.ldx, .tax, .tsx, .inx, .dex]) (v : Byte) :
      HandlerEffect mode ctx s m (loadX v s)
  | loadsY {m : Mnemonic} (hm : m ∈ [Mnemonic.ldy, .tay, .iny, .dey]) (v : Byte) :
      HandlerEffect mode ctx s m (loadY v s)
  | loadsSp : HandlerEffect mode ctx s .txs ((s.setSp s.x).setFlags (setZN s.x s.flags))
  | stores {m : Mnemonic} (hm : m ∈ [Mnemonic.sta, .stx, .sty]) (p : Addr) (hp : ctx.address = some p) (v : Byte) :
      HandlerEffect mode ctx s m (busWrite s p v)
  | storesAndFlags {m : Mnemonic} (hm : m ∈ [Mnemonic.inc, .dec]) (p : Addr) (hp : ctx.address = some p) (v : Byte) :
      HandlerEffect mode ctx s m (storeAndFlag p v s)
  | pushes {m : Mnemonic} (hm : m ∈ [Mnemonic.pha, .php]) (v : Byte) : HandlerEffect mode ctx s m (push s v)
  | pullsA : HandlerEffect mode ctx s .pla (loadA (popByte s) (popped s))
  | pullsFlags : HandlerEffect mode ctx s .plp ((popped s).setFlags (unpack (popByte s)))
  | adds {m : Mnemonic} (hm : m ∈ [Mnemonic.adc, .sbc]) (v : Byte) : HandlerEffect mode ctx s m (addToA v s)
  | compares {m : Mnemonic} (hm : m ∈ [Mnemonic.cmp, .cpx, .cpy]) (r v : Byte) :
      HandlerEffect mode ctx s m (s.setFlags (compareFlags r v s.flags))
  | tests (v : Byte) : HandlerEffect mode ctx s .bit (s.setFlags (bitFlags s.a v s.flags))
  | shiftsA {m : Mnemonic} (hm : m ∈ [Mnemonic.asl, .lsr, .rol, .ror]) (hmode : mode = .accumulator) (r : Shifted) :
      HandlerEffect mode ctx s m (shiftedToA r s)
  | shiftsMemory {m : Mnemonic} (hm : m ∈ [Mnemonic.asl, .lsr, .rol, .ror]) (p : Addr) (hp : ctx.address = some p)
      (r : Shifted) : HandlerEffect mode ctx s m (shiftedToMemory p r s)
  | jumps {m : Mnemonic} (hm : m ∈ [Mnemonic.jmp, .bcc, .bcs, .beq, .bne, .bmi, .bpl, .bvc, .bvs]) (target : Addr) :
      HandlerEffect mode ctx s m (s.setPc target)
  | calls (target : Addr) : HandlerEffect mode ctx s .jsr (opJsr target s)
  | returns : HandlerEffect mode ctx s .rts (opRts s)
  | setsC {m : Mnemonic} (hm : m ∈ [Mnemonic.clc, .sec]) (b : Bool) :
      HandlerEffect mode ctx s m (s.setFlags { s.flags with c := b })
  | setsI {m : Mnemonic} (hm : m ∈ [Mnemonic.sei, .cli]) (b : Bool) :
      HandlerEffect mode ctx s m (s.setFlags { s.flags with i := b })
  | setsD {m : Mnemonic} (hm : m ∈ [Mnemonic.sed, .cld]) (b : Bool) :
      HandlerEffect mode ctx s m (s.setFlags { s.flags with d := b })
  | clearsV : HandlerEffect mode ctx s .clv (s.setFlags { s.flags with v := false })

section
variable {mode : Mode} {ctx : Context} {s t : State} {m : Mnemonic}

/-- A handler that answers has its mnemonic's effect. -/
theorem handlerEffect_of_handler (h : handler m mode ctx s = some t) : HandlerEffect mode ctx s m t := by
  cases m with
  | nop => cases h; exact .nothing (by decide)
  | brk | rti | ill => cases h
  | lda | and | ora | eor =>
    obtain ⟨v, -, rfl⟩ := exists_of_withOperand h
    exact .loadsA (by decide) _
  | txa | tya => cases h; exact .loadsA (by decide) _
  | ldx =>
    obtain ⟨v, -, rfl⟩ := exists_of_withOperand h
    exact .loadsX (by decide) _
  | tax | tsx | inx | dex => cases h; exact .loadsX (by decide) _
  | ldy =>
    obtain ⟨v, -, rfl⟩ := exists_of_withOperand h
    exact .loadsY (by decide) _
  | tay | iny | dey => cases h; exact .loadsY (by decide) _
  | txs => cases h; exact .loadsSp
  | sta | stx | sty =>
    obtain ⟨p, hp, rfl⟩ := exists_of_withAddress h
    exact .stores (by decide) p hp _
  | inc | dec =>
    obtain ⟨p, v, hp, -, rfl⟩ := exists_of_withBoth h
    exact .storesAndFlags (by decide) p hp _
  | pha | php => cases h; exact .pushes (by decide) _
  | pla => cases h; exact .pullsA
  | plp => cases h; exact .pullsFlags
  | adc | sbc =>
    obtain ⟨v, -, rfl⟩ := exists_of_withOperand h
    exact .adds (by decide) _
  | cmp | cpx | cpy =>
    obtain ⟨v, -, rfl⟩ := exists_of_withOperand h
    exact .compares (by decide) _ _
  | bit =>
    obtain ⟨v, -, rfl⟩ := exists_of_withOperand h
    exact .tests v
  | asl | lsr | rol | ror =>
    obtain ⟨hmode, rfl⟩ | ⟨p, v, hp, -, rfl⟩ := accumulator_or_memory_of_shiftHandler h
    · exact .shiftsA (by decide) hmode _
    · exact .shiftsMemory (by decide) p hp _
  | jmp =>
    obtain ⟨p, -, rfl⟩ := exists_of_withAddress h
    exact .jumps (by decide) _
  | bcc | bcs | beq | bne | bmi | bpl | bvc | bvs =>
    obtain ⟨v, -, rfl⟩ := exists_of_withOffset h
    exact .jumps (by decide) _
  | jsr =>
    obtain ⟨p, -, rfl⟩ := exists_of_withAddress h
    exact .calls p
  | rts => cases h; exact .returns
  | clc | sec => cases h; exact .setsC (by decide) _
  | cli | sei => cases h; exact .setsI (by decide) _
  | cld | sed => cases h; exact .setsD (by decide) _
  | clv => cases h; exact .clearsV

/-- The PC policy writes PC alone. -/
theorem applyPcPolicy_eq_setPc (e : Entry) (t : State) : ∃ pc : Addr, applyPcPolicy e t = t.setPc pc := by
  unfold applyPcPolicy
  split
  · exact ⟨t.pc, rfl⟩
  · exact ⟨_, rfl⟩

/-- Every meaning has its mnemonic's effect, and beyond it writes PC and the answer. -/
theorem exec_effect {i : Instr} (h : exec i s = .next t) : ∃ (u : State) (pc : Addr) (r : StepResult),
    HandlerEffect i.operand.mode (resolve i.operand s) s i.mnemonic u ∧ t = (u.setPc pc).setAnswer (some r) := by
  cases hi : i.mnemonic.rejected with
  | true =>
    cases h.symm.trans (exec_of_rejected hi s)
    have hm : i.mnemonic ∈ [Mnemonic.nop, .brk, .rti, .ill] := by
      revert hi
      cases i.mnemonic <;> decide
    exact ⟨s, s.pc, .invalid, .nothing hm, rfl⟩
  | false =>
    obtain ⟨u, hu, hexec⟩ := exec_of_not_rejected hi i.opcode s
    cases h.symm.trans hexec
    obtain ⟨pc, hpc⟩ := applyPcPolicy_eq_setPc (rowEntry i.opcode i) u
    exact ⟨u, pc, _, handlerEffect_of_handler hu, by rw [hpc]⟩

/-! What each flag is written by. 10_state.md R28, R29. -/

namespace HandlerEffect

theorem c_eq (e : HandlerEffect mode ctx s m t)
    (hm : m ∉ [Mnemonic.adc, .sbc, .cmp, .cpx, .cpy, .asl, .lsr, .rol, .ror, .clc, .sec, .plp]) :
    t.flags.c = s.flags.c := by
  cases e with
  | adds h | compares h | shiftsA h | shiftsMemory h | setsC h => exact absurd (List.Sublist.mem h (by decide)) hm
  | pullsFlags => exact absurd (by decide) hm
  | _ => rfl

/-- Z and N are written together or not at all. 10_state.md R30. -/
theorem zn_eq (e : HandlerEffect mode ctx s m t)
    (hm : m ∉ [Mnemonic.lda, .ldx, .ldy, .tax, .tay, .txa, .tya, .tsx, .txs, .pla, .and, .ora, .eor, .bit, .adc, .sbc,
      .cmp, .cpx, .cpy, .inc, .dec, .inx, .iny, .dex, .dey, .asl, .lsr, .rol, .ror, .plp]) :
    t.flags.z = s.flags.z ∧ t.flags.n = s.flags.n := by
  cases e with
  | loadsA h | loadsX h | loadsY h | storesAndFlags h | adds h | compares h | shiftsA h | shiftsMemory h =>
    exact absurd (List.Sublist.mem h (by decide)) hm
  | loadsSp | pullsA | pullsFlags | tests => exact absurd (by decide) hm
  | _ => exact ⟨rfl, rfl⟩

theorem v_eq (e : HandlerEffect mode ctx s m t) (hm : m ∉ [Mnemonic.adc, .sbc, .bit, .clv, .plp]) :
    t.flags.v = s.flags.v := by
  cases e with
  | adds h => exact absurd (List.Sublist.mem h (by decide)) hm
  | pullsFlags | tests | clearsV => exact absurd (by decide) hm
  | _ => rfl

theorem i_eq (e : HandlerEffect mode ctx s m t) (hm : m ∉ [Mnemonic.sei, .cli, .plp]) : t.flags.i = s.flags.i := by
  cases e with
  | setsI h => exact absurd (List.Sublist.mem h (by decide)) hm
  | pullsFlags => exact absurd (by decide) hm
  | _ => rfl

theorem d_eq (e : HandlerEffect mode ctx s m t) (hm : m ∉ [Mnemonic.sed, .cld, .plp]) : t.flags.d = s.flags.d := by
  cases e with
  | setsD h => exact absurd (List.Sublist.mem h (by decide)) hm
  | pullsFlags => exact absurd (by decide) hm
  | _ => rfl

theorem bu_eq (e : HandlerEffect mode ctx s m t) (hm : m ∉ [Mnemonic.plp]) :
    t.flags.b = s.flags.b ∧ t.flags.u = s.flags.u := by
  cases e with
  | pullsFlags => exact absurd (by decide) hm
  | _ => exact ⟨rfl, rfl⟩

/-! What each register is written by. 10_state.md R23. -/

theorem a_eq (e : HandlerEffect mode ctx s m t) (hmode : mode ≠ .accumulator)
    (hm : m ∉ [Mnemonic.lda, .txa, .tya, .pla, .and, .ora, .eor, .adc, .sbc]) : t.a = s.a := by
  cases e with
  | loadsA h | adds h => exact absurd (List.Sublist.mem h (by decide)) hm
  | pullsA => exact absurd (by decide) hm
  | shiftsA _ h => exact absurd h hmode
  | _ => rfl

theorem x_eq (e : HandlerEffect mode ctx s m t) (hm : m ∉ [Mnemonic.ldx, .tax, .tsx, .inx, .dex]) : t.x = s.x := by
  cases e with
  | loadsX h => exact absurd h hm
  | _ => rfl

theorem y_eq (e : HandlerEffect mode ctx s m t) (hm : m ∉ [Mnemonic.ldy, .tay, .iny, .dey]) : t.y = s.y := by
  cases e with
  | loadsY h => exact absurd h hm
  | _ => rfl

theorem sp_eq (e : HandlerEffect mode ctx s m t)
    (hm : m ∉ [Mnemonic.txs, .pha, .php, .pla, .plp, .jsr, .rts]) : t.sp = s.sp := by
  cases e with
  | pushes h => exact absurd (List.Sublist.mem h (by decide)) hm
  | loadsSp | pullsA | pullsFlags | calls | returns => exact absurd (by decide) hm
  | _ => rfl

end HandlerEffect
end

/-- No other form of operand has the mode Accumulator. 30_encoding.md R82. -/
theorem mode_eq_accumulator_iff (o : Operand) : o.mode = .accumulator ↔ o = .accumulator := by
  cases o with
  | accumulator => exact ⟨fun _ => rfl, fun _ => rfl⟩
  | memory m => cases m <;> exact ⟨nofun, nofun⟩
  | _ => exact ⟨nofun, nofun⟩

/-- Settles O48: the state differs from the one the handler left in PC and answer alone, and each flag is written by no
effect of another mnemonic. -/
theorem onlyTheListedInstructionsWriteEachFlag : Obligations.OnlyTheListedInstructionsWriteEachFlag := by
  unfold Obligations.OnlyTheListedInstructionsWriteEachFlag
  intro i s t h
  obtain ⟨u, pc, r, e, rfl⟩ := exec_effect h
  simp only [State.setAnswer_flags, State.setPc_flags]
  exact ⟨not_imp_comm.mp e.c_eq, not_imp_comm.mp fun hm => (e.zn_eq hm).1, not_imp_comm.mp fun hm => (e.zn_eq hm).2,
    not_imp_comm.mp e.v_eq, not_imp_comm.mp e.i_eq, not_imp_comm.mp e.d_eq,
    not_imp_comm.mp fun hm => (e.bu_eq hm).1, not_imp_comm.mp fun hm => (e.bu_eq hm).2⟩

/-- Settles O49: as for the flags; A is written by a shift in the mode Accumulator alone. -/
theorem onlyTheListedInstructionsWriteEachRegister : Obligations.OnlyTheListedInstructionsWriteEachRegister := by
  unfold Obligations.OnlyTheListedInstructionsWriteEachRegister
  intro i s t h
  obtain ⟨u, pc, r, e, rfl⟩ := exec_effect h
  refine ⟨fun hne => ?_, not_imp_comm.mp e.x_eq, not_imp_comm.mp e.y_eq, not_imp_comm.mp e.sp_eq⟩
  by_contra hn
  obtain ⟨hacc, hm⟩ := not_or.mp hn
  exact hne (e.a_eq (mt (mode_eq_accumulator_iff i.operand).mp hacc) hm)

end Sys2Proof.Machine
end

section
/-! PROOF. What a step makes of memory: the writes of its bus program, in their order. The canonical form follows, as
every one of those writes keeps it. 20_memory.md R50, R69. -/

namespace Sys2Proof.Machine

/-- A program of bus calls leaves flat RAM as the writes among its calls do. 20_memory.md R52. -/
theorem runOn_flatRam_memory {α : Type} (p : BusProgram α) (m : Memory) :
    (p.runOn flatRam m).2 = applyWrites (p.callsOn flatRam m) m := by
  induction p generalizing m with
  | done _ => rfl
  | read _ _ ih => exact ih _ m
  | write address v _ ih => exact ih (m.write address.toNat v)

/-- Settles O55: the step is its bus program on flat RAM, so memory is what that program's calls make of it. -/
theorem memoryChangesByTheStepsBusWrites : Obligations.MemoryChangesByTheStepsBusWrites := by
  unfold Obligations.MemoryChangesByTheStepsBusWrites
  intro s t h
  obtain ⟨t', ht', hrun, hcalls⟩ := stepIsItsBusProgramOnFlatRam s
  cases h.symm.trans ht'
  rw [← hcalls, ← runOn_flatRam_memory, hrun]

theorem applyWrites_keeps_wf (accesses : List BusAccess) {m : Memory} (h : m.wf) : (applyWrites accesses m).wf := by
  induction accesses generalizing m with
  | nil => exact h
  | cons access rest ih =>
    cases access with
    | read _ => exact ih h
    | write address v => exact ih (Memory.wf_write h address.isLt v)

/-- Settles O10: the writes of the step keep the canonical form one by one. -/
theorem stepKeepsMemoryCanonical : Obligations.StepKeepsMemoryCanonical := by
  unfold Obligations.StepKeepsMemoryCanonical
  intro s t hs h
  rw [State.wf, memoryChangesByTheStepsBusWrites s t h]
  exact applyWrites_keeps_wf (stepAccesses s) hs

end Sys2Proof.Machine
end

section
/-! PROOF. Which accesses a step makes beside its handler's own. 20_memory.md R60, R62. -/

namespace Sys2Proof.Machine

theorem stepAccesses_of_not_rejected {s : State} (h : (fetchInstr s).mnemonic.rejected = false) :
    stepAccesses s = .read s.pc :: (operandByteReads (fetchInstr s).length s ++ pointerReads (fetchInstr s).operand s ++
      operandRead (fetchInstr s).operand s ++ handlerAccesses (fetchInstr s) s) :=
  congrArg (BusAccess.read s.pc :: ·) (if_neg (Bool.eq_false_iff.mp h))

/-- Settles O54: a memory mode's operand read is one of the step's accesses and what the context holds; JMP Indirect
has none, and its handler makes no access. -/
theorem memoryModesReadTheirOperand : Obligations.MemoryModesReadTheirOperand := by
  unfold Obligations.MemoryModesReadTheirOperand
  refine fun s => ⟨fun m hm hr => ⟨?_, ?_⟩, fun w hw => ?_⟩
  · rw [stepAccesses_of_not_rejected hr, hm]
    simp [operandRead]
  · rw [hm, resolve_memory_operand, memoryByte]
  · rw [stepAccesses_of_not_rejected (by rw [hw]; rfl), hw]
    rfl

end Sys2Proof.Machine
end

section
/-! PROOF. Where an instruction can change memory: nowhere, at its resolved address, or on the stack page. What a store
leaves there, and that the next step fetches it. 20_memory.md R59, R72. -/

namespace Sys2Proof.Machine

/-- The mnemonics with a form that writes memory at the resolved address. 20_memory.md R59. -/
abbrev addressWriters : List Mnemonic := [.sta, .stx, .sty, .inc, .dec, .asl, .lsr, .rol, .ror]

/-- A handler that pushes nothing changes no byte but the one at the context's address. -/
theorem HandlerEffect.busRead_eq {mode : Mode} {ctx : Context} {s t : State} {m : Mnemonic} {q : Addr}
    (e : HandlerEffect mode ctx s m t) (hq : m ∈ addressWriters → ctx.address ≠ some q)
    (hm : m ∉ [Mnemonic.pha, .php, .jsr]) : busRead t q = busRead s q := by
  cases e with
  | stores h p hp | storesAndFlags h p hp | shiftsMemory h p hp =>
    have hne : q ≠ p := by
      rintro rfl
      exact hq (List.Sublist.mem h (by decide)) hp
    exact (busRead_busWrite s p _ q).trans (if_neg hne)
  | pushes h => exact absurd (List.Sublist.mem h (by decide)) hm
  | calls => exact absurd (by decide) hm
  | _ => rfl

/-- The same of a whole meaning, which beyond its handler's effect writes PC and the answer. -/
theorem busRead_of_exec {i : Instr} {s t : State} {q : Addr} (h : exec i s = .next t)
    (hq : i.mnemonic ∈ addressWriters → (resolve i.operand s).address ≠ some q)
    (hi : i.mnemonic ∉ [Mnemonic.pha, .php, .jsr]) : busRead t q = busRead s q := by
  obtain ⟨u, pc, r, e, rfl⟩ := exec_effect h
  exact e.busRead_eq hq hi

/-- PHA, PHP and JSR have no Accumulator form. -/
theorem mnemonic_not_mem_stackStores_of_accumulator {i : Instr} (h : i.operand = .accumulator) :
    i.mnemonic ∉ [Mnemonic.pha, .php, .jsr] := by
  intro hi
  obtain rfl | rfl | ⟨target, rfl⟩ := eq_of_mnemonic_mem_stackStores hi <;> cases h

/-- Settles O50: an Accumulator form resolves no address, and the mnemonic of any other such form writes at none. -/
theorem formsThatStoreNothingLeaveMemory : Obligations.FormsThatStoreNothingLeaveMemory := by
  unfold Obligations.FormsThatStoreNothingLeaveMemory
  rintro i s t q h (hacc | hi)
  · refine busRead_of_exec h (fun _ => ?_) (mnemonic_not_mem_stackStores_of_accumulator hacc)
    rw [hacc]
    nofun
  · exact busRead_of_exec h (fun hm => absurd (List.Sublist.mem hm (by decide)) hi)
      fun hm => hi (List.Sublist.mem hm (by decide))

/-- A store writes its byte at the context's address. 41_load_store.md R143 to R145. -/
theorem handler_of_store {m : Mnemonic} (hm : m ∈ [Mnemonic.sta, .stx, .sty]) (mode : Mode) {ctx : Context} {p : Addr}
    (hp : ctx.address = some p) (s : State) :
    ∃ v, storedByte m ctx.operand s = some v ∧ handler m mode ctx s = some (busWrite s p v) := by
  have hwith (op : Addr → State → State) : withAddress ctx op s = some (op p s) := by rw [withAddress, hp]
  cases m with
  | sta => exact ⟨s.a, rfl, hwith opSta⟩
  | stx => exact ⟨s.x, rfl, hwith opStx⟩
  | sty => exact ⟨s.y, rfl, hwith opSty⟩
  | _ => exact absurd hm (by decide)

/-- A store in a memory mode writes one byte at the resolved address; beyond it PC and the answer. -/
theorem exec_store {i : Instr} {m : MemOperand} {s t : State} (h : exec i s = .next t) (ho : i.operand = .memory m)
    (hi : i.mnemonic ∈ [Mnemonic.sta, .stx, .sty]) : ∃ (v : Byte) (pc : Addr) (r : StepResult),
      storedByte i.mnemonic (some (memoryByte m s)) s = some v ∧
      t = ((busWrite s (effectiveAddress m s) v).setPc pc).setAnswer (some r) := by
  have hr : i.mnemonic.rejected = false :=
    (by decide : ∀ x ∈ [Mnemonic.sta, .stx, .sty], x.rejected = false) _ hi
  obtain ⟨u, hu, hexec⟩ := exec_of_not_rejected hr i.opcode s
  rw [ho] at hu
  obtain ⟨v, hv, hstore⟩ := handler_of_store hi (Operand.memory m).mode (resolve_memory_address s m) s
  cases hu.symm.trans hstore
  cases h.symm.trans hexec
  obtain ⟨pc, hpc⟩ := applyPcPolicy_eq_setPc (rowEntry i.opcode i) (busWrite s (effectiveAddress m s) v)
  exact ⟨v, pc, _, hv, by rw [hpc]⟩

/-- What a store stores reads back at the resolved address. -/
theorem busRead_of_exec_store {i : Instr} {m : MemOperand} {s t : State} {v : Byte} (h : exec i s = .next t)
    (ho : i.operand = .memory m) (hi : i.mnemonic ∈ [Mnemonic.sta, .stx, .sty])
    (hv : storedByte i.mnemonic (some (memoryByte m s)) s = some v) : busRead t (effectiveAddress m s) = v := by
  obtain ⟨w, pc, r, hw, rfl⟩ := exec_store h ho hi
  cases hv.symm.trans hw
  exact (busRead_busWrite s (effectiveAddress m s) v (effectiveAddress m s)).trans (if_pos rfl)

/-- Settles O51: the handler's effect writes memory at the resolved address and none of the fields named, and a store's
is its one write. -/
theorem memoryFormsStoreOnlyAtTheirAddress : Obligations.MemoryFormsStoreOnlyAtTheirAddress := by
  unfold Obligations.MemoryFormsStoreOnlyAtTheirAddress
  intro i m s t q h ho hi
  have hnot {l : List Mnemonic} (hl : ∀ x ∈ addressWriters, x ∉ l) : i.mnemonic ∉ l := hl _ hi
  have hmode : i.operand.mode ≠ .accumulator := mt (mode_eq_accumulator_iff i.operand).mp (by rw [ho]; nofun)
  have hmem : q ≠ effectiveAddress m s → busRead t q = busRead s q := by
    intro hq
    refine busRead_of_exec h (fun _ hp => hq ?_) (hnot (by decide))
    rw [ho, resolve_memory_address] at hp
    exact (Option.some.inj hp).symm
  have hflags : i.mnemonic ∈ [Mnemonic.sta, .stx, .sty] → t.flags = s.flags := by
    intro hst
    obtain ⟨v, pc, r, -, rfl⟩ := exec_store h ho hst
    rfl
  have hreads {n : Mnemonic} {v : Byte} (hn : n ∈ [Mnemonic.sta, .stx, .sty])
      (hv : storedByte n (some (memoryByte m s)) s = some v) (he : i.mnemonic = n) :
      busRead t (effectiveAddress m s) = v := by
    subst he
    exact busRead_of_exec_store h ho hn hv
  obtain ⟨u, pc, r, e, rfl⟩ := exec_effect h
  exact ⟨hmem, e.a_eq hmode (hnot (by decide)), e.x_eq (hnot (by decide)), e.y_eq (hnot (by decide)),
    e.sp_eq (hnot (by decide)), e.v_eq (hnot (by decide)), e.i_eq (hnot (by decide)), e.d_eq (hnot (by decide)),
    (e.bu_eq (hnot (by decide))).1, (e.bu_eq (hnot (by decide))).2, hreads (by decide) rfl, hreads (by decide) rfl,
    hreads (by decide) rfl, hflags, fun hid => e.c_eq ((by decide : ∀ x ∈ [Mnemonic.inc, .dec], x ∉ _) _ hid)⟩

/-- The opcode map has at each byte an instruction of that opcode. 30_encoding.md R89, R91. -/
theorem opcode_decodeInstr (op b1 b2 : Byte) : (decodeInstr op b1 b2).opcode = op := by
  have hzero : ∀ op : Byte, (decodeInstr op 0 0).opcode = op := by decide
  calc
    (decodeInstr op b1 b2).opcode = (decodeInstr op 0 0).opcode := apply_decodeInstr_congr rfl rfl
    _ = op := hzero op

theorem opcode_fetchInstr (s : State) : (fetchInstr s).opcode = busRead s s.pc := opcode_decodeInstr _ _ _

/-- Settles O56: the opcode byte of the next step is read where STA has left the accumulator. -/
theorem storesIntoCodeAreFetched : Obligations.StoresIntoCodeAreFetched := by
  unfold Obligations.StoresIntoCodeAreFetched
  intro i m s t hi ho h hpc
  rw [opcode_fetchInstr, hpc]
  exact busRead_of_exec_store h ho (by rw [hi]; decide) (by rw [hi]; rfl)

end Sys2Proof.Machine
end

section
/-! PROOF. The decoder and the encoder are inverse to each other: through the operand, whose bytes its mode puts together
again, and the table entry, which fixes the row. 30_encoding.md R80, R84 to R92. -/

namespace Sys2Proof.Machine

/-! An operand and its bytes. -/

theorem length_operand_bytes (o : Operand) : o.bytes.length + 1 = o.mode.length := by
  cases o with
  | memory m => cases m <;> rfl
  | _ => rfl

/-- The mode assembles an operand from its own bytes; the places past the last byte do not matter.
30_encoding.md R85 to R88. -/
theorem operandOf_mode_bytes (o : Operand) : operandOf o.mode (o.bytes.getD 0 0) (o.bytes.getD 1 0) = o := by
  have hword (w : Addr) : hiLo ([lowByte w, highByte w].getD 1 0) ([lowByte w, highByte w].getD 0 0) = w :=
    hiLo_highByte_lowByte w
  cases o with
  | indirect w => exact congrArg Operand.indirect (hword w)
  | memory m =>
    cases m with
    | absolute w => exact congrArg (Operand.memory ∘ .absolute) (hword w)
    | absoluteX w => exact congrArg (Operand.memory ∘ .absoluteX) (hword w)
    | absoluteY w => exact congrArg (Operand.memory ∘ .absoluteY) (hword w)
    | _ => rfl
  | _ => rfl

/-- The bytes of an assembled operand are those the mode's length takes. 30_encoding.md R80, R84. -/
theorem cons_bytes_operandOf (mode : Mode) (op b1 b2 : Byte) :
    op :: (operandOf mode b1 b2).bytes = [op, b1, b2].take mode.length := by
  cases mode with
  | indirect | absolute | absoluteX | absoluteY =>
    simp [operandOf, Operand.bytes, MemOperand.bytes, Mode.length]
  | _ => rfl

/-! The decoder at an instruction's own opcode byte. -/

/-- An instruction labelled Illegal is `ill` with its own opcode byte. 30_encoding.md R92. -/
theorem eq_ill_of_mnemonic {i : Instr} (h : i.mnemonic = .ill) : i = .ill i.opcode := by
  cases i with
  | ill _ => rfl
  | _ => cases h

/-- The table's entry of an Illegal opcode byte is labelled so. 30_encoding.md R92. -/
theorem lookup_mnemonic_of_mem_illegalOpcodes {op : Byte} (h : op ∈ illegalOpcodes) : (lookup op).mnemonic = .ill := by
  have hall : illegalOpcodes.all (fun op => (lookup op).mnemonic == .ill) = true := by decide
  exact eq_of_beq (List.all_eq_true.mp hall op h)

/-- The opcode map has a well-formed instruction at its opcode byte, with the operand its mode assembles.
30_encoding.md R89, R91, R92. -/
theorem decodeInstr_opcode {i : Instr} (hi : i.wellFormed = true) {b1 b2 : Byte}
    (ho : operandOf i.operand.mode b1 b2 = i.operand) : decodeInstr i.opcode b1 b2 = i := by
  cases i with
  | ill op =>
    have hill := lookup_mnemonic_of_mem_illegalOpcodes (List.contains_iff_mem.mp hi)
    rw [lookup_eq_rowEntry op b1 b2] at hill
    calc
      decodeInstr op b1 b2 = .ill (decodeInstr op b1 b2).opcode := eq_ill_of_mnemonic hill
      _ = .ill op := by rw [opcode_decodeInstr]
  | _ =>
    cases ho
    dsimp only [Instr.opcode]
    rfl

/-- The operand bytes do not affect the length. 30_encoding.md R84. -/
theorem opcodeLength_eq_length_decodeInstr (op b1 b2 : Byte) : opcodeLength op = (decodeInstr op b1 b2).length :=
  congrArg (Mode.length ∘ Entry.mode) (lookup_eq_rowEntry op b1 b2)

/-- The list decoder takes the opcode byte and as many operand bytes as its length says. 30_encoding.md R80, R84. -/
theorem decode_cons_append {op : Byte} {bytes : List Byte} (h : bytes.length + 1 = opcodeLength op) (rest : List Byte) :
    decode (op :: (bytes ++ rest)) = .ok (decodeInstr op (bytes.getD 0 0) (bytes.getD 1 0), rest) := by
  match bytes with
  | [] => exact decode_one h.symm rest
  | [b1] => exact decode_two h.symm b1 rest
  | [b1, b2] => exact decode_three h.symm b1 b2 rest
  | _ :: _ :: _ :: tail =>
    have hle : opcodeLength op ≤ 3 := (Laws.mode_length_bounds _).2
    simp only [List.length_cons] at h
    omega

/-- Settles O1: the operand's bytes assemble to the operand, with which the opcode map has the instruction, and their
number is the one the decoder takes. -/
theorem decodeOfEncodeIsTheInstruction : Obligations.DecodeOfEncodeIsTheInstruction := by
  unfold Obligations.DecodeOfEncodeIsTheInstruction
  intro i rest hi
  have hrow := decodeInstr_opcode hi (operandOf_mode_bytes i.operand)
  have hlen : i.operand.bytes.length + 1 = opcodeLength i.opcode := by
    rw [length_operand_bytes, opcodeLength_eq_length_decodeInstr, hrow, Instr.length]
  calc
    decode (encode i ++ rest) = decode (i.opcode :: (i.operand.bytes ++ rest)) := rfl
    _ = .ok (i, rest) := by rw [decode_cons_append hlen, hrow]

/-! The encoder on what the decoder answers. -/

theorem wellFormed_decodeInstr (op b1 b2 : Byte) : (decodeInstr op b1 b2).wellFormed = true := by
  have hzero : ∀ op : Byte, (decodeInstr op 0 0).wellFormed = true := by decide
  calc
    (decodeInstr op b1 b2).wellFormed = (decodeInstr op 0 0).wellFormed := apply_decodeInstr_congr rfl rfl
    _ = true := hzero op

/-- Settles O2: the decoded instruction has the opcode byte it was read from and the operand its entry's mode
assembles. -/
theorem encodeOfDecodeIsTheBytes : Obligations.EncodeOfDecodeIsTheBytes := by
  unfold Obligations.EncodeOfDecodeIsTheBytes
  refine fun op b1 b2 => ⟨wellFormed_decodeInstr op b1 b2, ?_⟩
  calc
    encode (decodeInstr op b1 b2) = op :: (operandOf (lookup op).mode b1 b2).bytes := by
      rw [encode, opcode_decodeInstr, operandOf_lookup_mode]
    _ = [op, b1, b2].take (lookup op).mode.length := cons_bytes_operandOf _ _ _ _
    _ = [op, b1, b2].take (decodeInstr op b1 b2).length := by rw [lookup_eq_rowEntry op b1 b2, rowEntry_mode_length]

/-- Settles O5: the table's entry is the row of the decoded instruction. -/
theorem lengthAndRowComeFromTheOpcodeByte : Obligations.LengthAndRowComeFromTheOpcodeByte := by
  unfold Obligations.LengthAndRowComeFromTheOpcodeByte
  intro op b1 b2
  rw [lookup_eq_rowEntry op b1 b2]
  exact ⟨opcode_decodeInstr op b1 b2, rfl, rfl, rfl, rfl, rfl⟩

/-! Fixed words: each is the encoding of the instruction it stands for. -/

/-- Settles O3: the words are encodings, and the table is looked up at the four bytes. -/
theorem documentedEntriesDecode : Obligations.DocumentedEntriesDecode := by
  unfold Obligations.DocumentedEntriesDecode
  have hword := decodeOfEncodeIsTheInstruction
  exact ⟨rfl, rfl, rfl, rfl, rfl, rfl, rfl, rfl, hword (.ldaImmediate 0x05) [0xAA] rfl, hword .tax [] rfl,
    hword (.cmpImmediate 0x00) [] rfl, hword (.ill 0x02) [] rfl⟩

/-- Settles O4: the words are encodings. -/
theorem writtenOutWordsDecode : Obligations.WrittenOutWordsDecode := by
  unfold Obligations.WrittenOutWordsDecode
  have hword (i : Instr) (hi : i.wellFormed = true) : decode (encode i ++ []) = .ok (i, []) :=
    decodeOfEncodeIsTheInstruction i [] hi
  exact ⟨hword (.ldaZeroPageX 0xF0) rfl, hword (.staAbsolute 0x800A) rfl, hword .txs rfl,
    hword (.bitAbsolute 0x0200) rfl, hword (.sbcIndirectIndexedY 0x40) rfl, hword (.decAbsoluteX 0x0200) rfl,
    hword .rorAccumulator rfl, hword (.jmpIndirect 0x8010) rfl, hword (.bne 0xFB) rfl, hword .clv rfl, hword .brk rfl⟩

end Sys2Proof.Machine
end

section
/-! PROOF. The step against the decoder, the spec's pseudocode and its result. 40_step_and_addressing.md R101, R104,
R107. -/

namespace Sys2Proof.Machine

/-! What a step is, rejected and executed. -/

theorem step_of_rejected {s : State} (h : (fetchInstr s).mnemonic.rejected = true) :
    step s = .next (s.setAnswer (some .invalid)) :=
  exec_of_rejected h s

theorem step_of_not_rejected {s : State} (h : (fetchInstr s).mnemonic.rejected = false) : ∃ t : State,
    handler (fetchInstr s).mnemonic (fetchInstr s).operand.mode (resolve (fetchInstr s).operand s) s = some t ∧
    step s = .next ((applyPcPolicy (rowEntry (busRead s s.pc) (fetchInstr s)) t).setAnswer
      (some (.executed (busRead s s.pc)))) := by
  obtain ⟨t, ht, hexec⟩ := exec_of_not_rejected h (busRead s s.pc) s
  rw [opcode_fetchInstr] at hexec
  exact ⟨t, ht, hexec⟩

/-! The step's result. -/

theorem stepResult_of_rejected {s : State} (h : (fetchInstr s).mnemonic.rejected = true) : stepResult s = .invalid :=
  if_pos h

theorem stepResult_of_not_rejected {s : State} (h : (fetchInstr s).mnemonic.rejected = false) :
    stepResult s = .executed (busRead s s.pc) :=
  if_neg (Bool.eq_false_iff.mp h)

/-- Settles O7: the answer of a rejected step is the sentinel, that of an executed one the opcode byte fetched. -/
theorem stepReturnsTheOpcodeOrTheSentinel : Obligations.StepReturnsTheOpcodeOrTheSentinel := by
  unfold Obligations.StepReturnsTheOpcodeOrTheSentinel
  intro s
  cases h : (fetchInstr s).mnemonic.rejected with
  | true => exact ⟨_, step_of_rejected h, rfl, congrArg some (stepResult_of_rejected h).symm⟩
  | false =>
    obtain ⟨t, -, hstep⟩ := step_of_not_rejected h
    exact ⟨_, hstep, rfl, congrArg some (stepResult_of_not_rejected h).symm⟩

/-! The pseudocode. -/

theorem resolveMode_at_pc (s : State) :
    resolveMode (rowEntry (busRead s s.pc) (fetchInstr s)).mode s = resolve (fetchInstr s).operand s := by
  rw [resolveMode, operandOf_at_pc]

theorem engineStep_of_rejected {s : State} (h : (fetchInstr s).mnemonic.rejected = true) :
    engineStep s = some (s.setAnswer (some .invalid)) := by
  dsimp only [engineStep]
  rw [lookup_at_pc]
  exact if_pos h

theorem engineStep_of_not_rejected {s t : State} (h : (fetchInstr s).mnemonic.rejected = false)
    (ht : handler (fetchInstr s).mnemonic (fetchInstr s).operand.mode (resolve (fetchInstr s).operand s) s = some t) :
    engineStep s = some ((applyPcPolicy (rowEntry (busRead s s.pc) (fetchInstr s)) t).setAnswer
      (some (.executed (busRead s s.pc)))) := by
  dsimp only [engineStep]
  rw [lookup_at_pc, resolveMode_at_pc]
  refine (if_neg (Bool.eq_false_iff.mp h)).trans ?_
  dsimp only [rowEntry]
  rw [ht]

/-- Settles O8: the entry looked up is the row of the instruction fetched, so the pseudocode rejects where the step
does, and elsewhere runs the same handler, which answers, on the same context. -/
theorem stepIsTheTableDrivenEngine : Obligations.StepIsTheTableDrivenEngine := by
  unfold Obligations.StepIsTheTableDrivenEngine
  intro s
  cases h : (fetchInstr s).mnemonic.rejected with
  | true => exact ⟨_, engineStep_of_rejected h, step_of_rejected h⟩
  | false =>
    obtain ⟨t, ht, hstep⟩ := step_of_not_rejected h
    exact ⟨_, engineStep_of_not_rejected h ht, hstep⟩

/-! The list decoder on the three bytes at PC. -/

/-- On three bytes the list decoder answers the opcode map's instruction and the bytes past its length.
30_encoding.md R80, R84. -/
theorem decode_three_bytes (op b1 b2 : Byte) : decode [op, b1, b2] =
    .ok (decodeInstr op b1 b2, [op, b1, b2].drop (decodeInstr op b1 b2).length) := by
  obtain ⟨hwf, hencode⟩ := encodeOfDecodeIsTheBytes op b1 b2
  rw [← decodeOfEncodeIsTheInstruction _ _ hwf, hencode, List.take_append_drop]

/-- Settles O6: the decoded instruction is the one the step fetches. -/
theorem stepRunsTheDecodedInstruction : Obligations.StepRunsTheDecodedInstruction := by
  unfold Obligations.StepRunsTheDecodedInstruction
  intro s i rest h
  rw [decode_three_bytes] at h
  cases h
  exact step_eq_exec s

end Sys2Proof.Machine
end

section
/-! PROOF. The default delta of PC: no handler but the PC managers' writes PC, and the modes of the other executed rows.
40_step_and_addressing.md R123, R124. -/

namespace Sys2Proof.Machine

/-- The mnemonics whose handler assigns PC (`managesPc_iff`). 40_step_and_addressing.md R124. -/
abbrev pcManagers : List Mnemonic := [.jmp, .jsr, .rts, .bcc, .bcs, .beq, .bne, .bmi, .bpl, .bvc, .bvs]

theorem managesPc_iff (m : Mnemonic) : m.managesPc = true ↔ m ∈ pcManagers := by
  cases m <;> decide

theorem rejected_eq_false {m : Mnemonic} (h : m ∉ [Mnemonic.brk, .rti, .ill]) : m.rejected = false := by
  revert h
  cases m <;> decide

theorem HandlerEffect.pc_eq {mode : Mode} {ctx : Context} {s t : State} {m : Mnemonic}
    (e : HandlerEffect mode ctx s m t) (hm : m ∉ pcManagers) : t.pc = s.pc := by
  cases e with
  | jumps h => exact absurd (List.Sublist.mem h (by decide)) hm
  | calls | returns => exact absurd (by decide) hm
  | _ => rfl

/-- An executed instruction of no PC manager leaves PC advanced by its length. -/
theorem exec_advances_pc {i : Instr} (hpc : i.mnemonic ∉ pcManagers) (hi : i.mnemonic ∉ [Mnemonic.brk, .rti, .ill])
    (s : State) : ∃ t : State, exec i s = .next t ∧ t.pc = s.pc + BitVec.ofNat 16 i.operand.mode.length := by
  obtain ⟨u, hu, hexec⟩ := exec_of_not_rejected (rejected_eq_false hi) i.opcode s
  refine ⟨_, hexec, ?_⟩
  have hpolicy : applyPcPolicy (rowEntry i.opcode i) u = advancePc u i.operand.mode.length :=
    if_neg (mt (managesPc_iff i.mnemonic).mp hpc)
  rw [State.setAnswer_pc, hpolicy, advancePc, State.setPc_pc, (handlerEffect_of_handler hu).pc_eq hpc]

/-- Relative is the branches' mode, Indirect is JMP's, Illegal is ILL's. 30_encoding.md R91, R92. -/
theorem mode_not_mem_of_default_delta {i : Instr} (hpc : i.mnemonic ∉ pcManagers)
    (hi : i.mnemonic ∉ [Mnemonic.brk, .rti, .ill]) : i.operand.mode ∉ [Mode.relative, .indirect, .illegal] := by
  cases i with
  | jmpIndirect | bcc | bcs | beq | bne | bmi | bpl | bvc | bvs => exact absurd (of_decide_eq_true rfl) hpc
  | ill => exact absurd (of_decide_eq_true rfl) hi
  | _ => exact of_decide_eq_true rfl

/-- The other modes by the delta they give PC. 40_step_and_addressing.md R123. -/
theorem mode_delta_cases {m : Mode} (h : m ∉ [Mode.relative, .indirect, .illegal]) :
    (m ∈ [Mode.implied, .accumulator] ∧ BitVec.ofNat 16 m.length = 1) ∨
    (m ∈ [Mode.immediate, .zeroPage, .zeroPageX, .zeroPageY, .indexedIndirectX, .indirectIndexedY] ∧
      BitVec.ofNat 16 m.length = 2) ∨
    (m ∈ [Mode.absolute, .absoluteX, .absoluteY] ∧ BitVec.ofNat 16 m.length = 3) := by
  revert h
  cases m <;> decide

/-- Settles O19: PC advances by the length of the mode, which is one of the eleven. -/
theorem pcAdvancesByTheDefaultDelta : Obligations.PcAdvancesByTheDefaultDelta := by
  unfold Obligations.PcAdvancesByTheDefaultDelta
  intro i s hpc hi
  obtain ⟨t, hexec, ht⟩ := exec_advances_pc hpc hi s
  refine ⟨t, hexec, ?_⟩
  obtain ⟨hm, hd⟩ | ⟨hm, hd⟩ | ⟨hm, hd⟩ := mode_delta_cases (mode_not_mem_of_default_delta hpc hi)
  · exact .inl ⟨hm, by rw [ht, hd]⟩
  · exact .inr (.inl ⟨hm, by rw [ht, hd]⟩)
  · exact .inr (.inr ⟨hm, by rw [ht, hd]⟩)

end Sys2Proof.Machine
end

section
/-! PROOF. The contexts the addressing modes build, their addresses as numbers. 40_step_and_addressing.md R108 to
R122. -/

namespace Sys2Proof.Machine

/-! Addresses as numbers. -/

theorem toNat_zext16 (b : Byte) : (zext16 b).toNat = b.toNat :=
  BitVec.toNat_setWidth_of_le (by decide)

/-- A zero-page sum is modulo 256. 40_step_and_addressing.md R112, R113, decision D5. -/
theorem toNat_zext16_add (b index : Byte) : (zext16 (b + index)).toNat = (b.toNat + index.toNat) % 256 := by
  rw [toNat_zext16, BitVec.toNat_add]

/-- A 16-bit sum is modulo 65536. 40_step_and_addressing.md R116, R117. -/
theorem toNat_add_zext16 (w : Addr) (index : Byte) : (w + zext16 index).toNat = (w.toNat + index.toNat) % 65536 := by
  rw [BitVec.toNat_add, toNat_zext16]

/-- A pointer in page zero wraps in it. 00_scope.md R10. -/
theorem toNat_busReadZeroPageWord (s : State) (zp : Byte) : (busReadZeroPageWord s zp).toNat =
    (s.mem.read ((zp.toNat + 1) % 256)).toNat * 256 + (s.mem.read zp.toNat).toNat := by
  have hnext : (zext16 (zp + 1)).toNat = (zp.toNat + 1) % 256 := toNat_zext16_add zp 1
  rw [busReadZeroPageWord, toNat_hiLo, busRead, busRead, hnext, toNat_zext16]

/-- JMP's pointer runs on as a 16-bit number. 40_step_and_addressing.md R120, decision D9. -/
theorem toNat_indirectTarget (w : Addr) (s : State) : (indirectTarget w s).toNat =
    (s.mem.read ((w.toNat + 1) % 65536)).toNat * 256 + (s.mem.read w.toNat).toNat := by
  have hnext : (w + 1).toNat = (w.toNat + 1) % 65536 := BitVec.toNat_add w 1
  rw [indirectTarget, busReadWord, toNat_hiLo, busRead, busRead, hnext]

/-- The index X is added to the pointer. 40_step_and_addressing.md R121, decision D8. -/
theorem toNat_effectiveAddress_indexedIndirectX (zp : Byte) (s : State) :
    (effectiveAddress (.indexedIndirectX zp) s).toNat =
      (s.mem.read ((zp.toNat + s.x.toNat + 1) % 256)).toNat * 256 +
        (s.mem.read ((zp.toNat + s.x.toNat) % 256)).toNat := by
  rw [effectiveAddress, toNat_busReadZeroPageWord, BitVec.toNat_add, Nat.mod_add_mod]

/-- The index Y is added to the word read. 40_step_and_addressing.md R122, decision D8. -/
theorem toNat_effectiveAddress_indirectIndexedY (zp : Byte) (s : State) :
    (effectiveAddress (.indirectIndexedY zp) s).toNat =
      ((s.mem.read ((zp.toNat + 1) % 256)).toNat * 256 + (s.mem.read zp.toNat).toNat + s.y.toNat) % 65536 := by
  rw [effectiveAddress, toNat_add_zext16, toNat_busReadZeroPageWord]

/-- Settles O22: the three addresses are little-endian words, the first two read through a pointer in page zero. -/
theorem indirectModesFollowLittleEndianPointers : Obligations.IndirectModesFollowLittleEndianPointers := by
  unfold Obligations.IndirectModesFollowLittleEndianPointers
  exact fun b1 w s => ⟨⟨_, rfl, toNat_indirectTarget w s⟩, ⟨_, rfl, toNat_effectiveAddress_indexedIndirectX b1 s⟩,
    ⟨_, rfl, toNat_effectiveAddress_indirectIndexedY b1 s⟩⟩

/-- Settles O21: each context is what the resolver's definition says, and each address is a sum as a number. -/
theorem indexedModesAddTheIndex : Obligations.IndexedModesAddTheIndex := by
  unfold Obligations.IndexedModesAddTheIndex
  exact fun b1 w s => ⟨rfl, ⟨_, rfl, toNat_zext16_add b1 s.x⟩, ⟨_, rfl, toNat_zext16_add b1 s.y⟩, rfl,
    ⟨_, rfl, toNat_add_zext16 w s.x⟩, ⟨_, rfl, toNat_add_zext16 w s.y⟩⟩

/-! The rows without operand bytes. -/

theorem mode_eq_accumulator_iff_mem (i : Instr) : i.operand.mode = .accumulator ↔
    i ∈ [Instr.aslAccumulator, .lsrAccumulator, .rolAccumulator, .rorAccumulator] := by
  cases i with
  | aslAccumulator | lsrAccumulator | rolAccumulator | rorAccumulator => exact iff_of_true rfl (by decide)
  | _ => exact iff_of_false nofun (of_decide_eq_true rfl)

theorem mnemonic_mem_implied_iff (i : Instr) :
    i.mnemonic ∈ [Mnemonic.brk, .rti, .rts, .pha, .php, .pla, .plp, .clc, .sec, .cli, .sei, .cld, .sed, .clv, .nop,
      .tax, .tay, .txa, .tya, .tsx, .txs, .inx, .iny, .dex, .dey] ↔ i.operand.mode = .implied := by
  cases i with
  | brk | rti | rts | pha | php | pla | plp | clc | sec | cli | sei | cld | sed | clv | nop | tax | tay | txa | tya
  | tsx | txs | inx | iny | dex | dey => exact iff_of_true (by decide) rfl
  | _ => exact iff_of_false (of_decide_eq_true rfl) nofun

/-- Settles O20: the contexts, reads and lengths are what the definitions say; the rows of the two modes without operand
bytes are told row by row. -/
theorem directModesPopulateTheContext : Obligations.DirectModesPopulateTheContext := by
  unfold Obligations.DirectModesPopulateTheContext
  exact fun b1 s => ⟨rfl, rfl, rfl, rfl, rfl, rfl, rfl, rfl, rfl, rfl, rfl, rfl, mode_eq_accumulator_iff_mem,
    mnemonic_mem_implied_iff⟩

end Sys2Proof.Machine
end

section
/-! PROOF. An executed instruction of no PC manager is its handler's state, completed; its row is one the opcode table
has for its mnemonic. The loads and the stores are read off the two. 41_load_store.md R140 to R145. -/

namespace Sys2Proof.Machine

/-! The row of an instruction, by a check of the 256 entries. -/

theorem wellFormed_of_mnemonic_ne_ill {i : Instr} (hi : i.mnemonic ≠ .ill) : i.wellFormed = true := by
  cases i with
  | ill => exact absurd rfl hi
  | _ => rfl

/-- The table has at a documented instruction's opcode byte that instruction's row. 30_encoding.md R83, R91. -/
theorem lookup_opcode {i : Instr} (hi : i.mnemonic ≠ .ill) : lookup i.opcode = rowEntry i.opcode i := by
  have hrow := decodeInstr_opcode (wellFormed_of_mnemonic_ne_ill hi) (operandOf_mode_bytes i.operand)
  rw [lookup_eq_rowEntry, hrow]

/-- The rows the table has for a mnemonic are the rows of the instructions of that mnemonic. -/
theorem row_mem_of_lookup {i : Instr} {m : Mnemonic} {rows : List (Mode × Byte)} (hi : i.mnemonic = m) (hm : m ≠ .ill)
    (hrows : ∀ op : Byte, (lookup op).mnemonic = m → ((lookup op).mode, op) ∈ rows) :
    (i.operand.mode, i.opcode) ∈ rows := by
  have hrow := hrows i.opcode
  rw [lookup_opcode (hi ▸ hm)] at hrow
  exact hrow hi

/-- The modes of the operands that are not in memory (`exists_memory_of_mode`). -/
abbrev nonMemoryModes : List Mode := [.implied, .accumulator, .immediate, .relative, .indirect, .illegal]

theorem exists_memory_of_mode {o : Operand} (h : o.mode ∉ nonMemoryModes) : ∃ m : MemOperand, o = .memory m := by
  cases o with
  | memory m => exact ⟨m, rfl⟩
  | _ => exact absurd (of_decide_eq_true rfl) h

/-- Every form of a store has a memory operand. 30_encoding.md R91. -/
theorem exists_memory_operand_of_store {i : Instr} (hi : i.mnemonic ∈ [Mnemonic.sta, .stx, .sty]) :
    ∃ m : MemOperand, i.operand = .memory m := by
  have hmodes : ∀ op : Byte, (lookup op).mnemonic ∈ [Mnemonic.sta, .stx, .sty] →
      (lookup op).mode ∉ nonMemoryModes := by decide
  have hne : i.mnemonic ≠ .ill := (by decide : ∀ x ∈ [Mnemonic.sta, .stx, .sty], x ≠ .ill) _ hi
  have hmode := hmodes i.opcode
  rw [lookup_opcode hne] at hmode
  exact exists_memory_of_mode (hmode hi)

/-! What an instruction that does not assign PC ends in. 40_step_and_addressing.md R101, R107, R123. -/

/-- Its handler's state, completed. -/
theorem exec_eq_complete {i : Instr} {s t : State} (hr : i.mnemonic.rejected = false)
    (hpc : i.mnemonic.managesPc = false)
    (ht : handler i.mnemonic i.operand.mode (resolve i.operand s) s = some t) : exec i s = complete i t := by
  obtain ⟨u, hu, hexec⟩ := exec_of_not_rejected hr i.opcode s
  cases ht.symm.trans hu
  have hpolicy : applyPcPolicy (rowEntry i.opcode i) t = advancePc t i.length := if_neg (Bool.eq_false_iff.mp hpc)
  rw [hexec, hpolicy, complete, completeManaged]

/-- A handler that reads the operand byte is given one, as its mode populates it. 40_step_and_addressing.md R127. -/
theorem exec_eq_complete_of_withOperand {i : Instr} {m : Mnemonic} {op : Byte → State → State} (hi : i.mnemonic = m)
    (hr : m.rejected = false) (hpc : m.managesPc = false) (s : State)
    (hop : ∀ mode ctx, handler m mode ctx s = withOperand ctx op s) :
    ∃ v : Byte, (resolve i.operand s).operand = some v ∧ exec i s = complete i (op v s) := by
  subst hi
  obtain ⟨t, ht, -⟩ := exec_of_not_rejected hr i.opcode s
  have hwith := ht
  rw [hop] at hwith
  obtain ⟨v, hv, rfl⟩ := exists_of_withOperand hwith
  exact ⟨v, hv, exec_eq_complete hr hpc ht⟩

/-! The loads. -/

theorem handlerAccesses_of_load {i : Instr} {m : Mnemonic} (hi : i.mnemonic = m)
    (hm : m ∈ [Mnemonic.lda, .ldx, .ldy]) (s : State) : handlerAccesses i s = [] := by
  rw [handlerAccesses, hi]
  cases m with
  | lda | ldx | ldy => rfl
  | _ => exact absurd hm (by decide)

/-- Settles O23: the rows are the table's, and the handler's state, completed, is the record update stated. -/
theorem loadsWriteRegisterZeroAndNegative : Obligations.LoadsWriteRegisterZeroAndNegative := by
  unfold Obligations.LoadsWriteRegisterZeroAndNegative
  exact fun i s =>
    ⟨fun hi => ⟨row_mem_of_lookup hi nofun (by decide), handlerAccesses_of_load hi (by decide) s,
        exec_eq_complete_of_withOperand (op := opLda) hi rfl rfl s fun _ _ => rfl⟩,
      fun hi => ⟨row_mem_of_lookup hi nofun (by decide), handlerAccesses_of_load hi (by decide) s,
        exec_eq_complete_of_withOperand (op := opLdx) hi rfl rfl s fun _ _ => rfl⟩,
      fun hi => ⟨row_mem_of_lookup hi nofun (by decide), handlerAccesses_of_load hi (by decide) s,
        exec_eq_complete_of_withOperand (op := opLdy) hi rfl rfl s fun _ _ => rfl⟩⟩

/-! The stores. -/

theorem handlerAccesses_of_addressWriter {i : Instr} (hi : i.mnemonic ∈ addressWriters) (s : State) :
    handlerAccesses i s = writeBack i s := by
  rw [handlerAccesses]
  generalize i.mnemonic = m at hi
  cases m with
  | sta | stx | sty | inc | dec | asl | lsr | rol | ror => rfl
  | _ => exact absurd hi (by decide)

theorem writeBack_eq {i : Instr} {s : State} {p : Addr} {v : Byte} (hp : (resolve i.operand s).address = some p)
    (hv : storedByte i.mnemonic (resolve i.operand s).operand s = some v) : writeBack i s = [.write p v] := by
  rw [writeBack, hp, hv]

/-- A store reads the byte at its resolved address and writes its register there. 20_memory.md R59, R60. -/
theorem exec_eq_complete_of_store {i : Instr} {n : Mnemonic} {s : State} {v : Byte} (hi : i.mnemonic = n)
    (hn : n ∈ [Mnemonic.sta, .stx, .sty]) (hv : storedByte n (resolve i.operand s).operand s = some v) :
    ∃ p : Addr, (resolve i.operand s).address = some p ∧ (resolve i.operand s).operand = some (busRead s p) ∧
      handlerAccesses i s = [.write p v] ∧ exec i s = complete i (busWrite s p v) := by
  subst hi
  obtain ⟨m, ho⟩ := exists_memory_operand_of_store hn
  have hp : (resolve i.operand s).address = some (effectiveAddress m s) := by rw [ho, resolve_memory_address]
  have hread : (resolve i.operand s).operand = some (busRead s (effectiveAddress m s)) := by
    rw [ho, resolve_memory_operand, memoryByte]
  have haccess : handlerAccesses i s = [.write (effectiveAddress m s) v] := by
    rw [handlerAccesses_of_addressWriter (List.Sublist.mem hn (by decide)), writeBack_eq hp hv]
  obtain ⟨w, hw, hstore⟩ := handler_of_store hn i.operand.mode hp s
  cases hv.symm.trans hw
  have hexecuted : ∀ x ∈ [Mnemonic.sta, .stx, .sty], x.rejected = false ∧ x.managesPc = false := by decide
  obtain ⟨hr, hpc⟩ := hexecuted _ hn
  exact ⟨_, hp, hread, haccess, exec_eq_complete hr hpc hstore⟩

/-- Settles O24: the rows are the table's, and the one byte written, completed, is the record update stated. -/
theorem storesWriteOneByteAndNoFlag : Obligations.StoresWriteOneByteAndNoFlag := by
  unfold Obligations.StoresWriteOneByteAndNoFlag
  exact fun i s =>
    ⟨fun hi => ⟨row_mem_of_lookup hi nofun (by decide), exec_eq_complete_of_store hi (by decide) rfl⟩,
      fun hi => ⟨row_mem_of_lookup hi nofun (by decide), exec_eq_complete_of_store hi (by decide) rfl⟩,
      fun hi => ⟨row_mem_of_lookup hi nofun (by decide), exec_eq_complete_of_store hi (by decide) rfl⟩⟩

end Sys2Proof.Machine
end

section
/-! PROOF. Push and Pop as numbers, and the transfers and PHA as completed handlers. 42_transfer_stack.md R150 to
R158. -/

namespace Sys2Proof.Machine

/-! Push and Pop. -/

/-- SP's decrement wraps modulo 256, from 0x00 to 0xFF. 42_transfer_stack.md R150. -/
theorem sub_one_eq_ofInt (b : Byte) : b - 1 = BitVec.ofInt 8 (b.toNat - 1) := by
  rw [sub_eq_add_neg (b.toNat : Int) 1, BitVec.ofInt_add, BitVec.ofInt_natCast, BitVec.ofNat_toNat,
    BitVec.setWidth_eq, BitVec.sub_eq_add_neg]
  rfl

theorem push_eq_write (s : State) (v : Byte) :
    push s v = { s with mem := s.mem.write (0x0100 + s.sp.toNat) v, sp := BitVec.ofInt 8 (s.sp.toNat - 1) } := by
  rw [← toNat_stackAddress, ← sub_one_eq_ofInt]
  rfl

theorem popped_eq_ofNat (s : State) : popped s = { s with sp := BitVec.ofNat 8 (s.sp.toNat + 1) } :=
  congrArg s.setSp (BitVec.add_def s.sp 1)

/-- The byte is the one at the incremented SP, which wraps inside page one. 42_transfer_stack.md R151. -/
theorem popByte_eq_read (s : State) : popByte s = s.mem.read (0x0100 + (s.sp.toNat + 1) % 256) := by
  rw [popByte, busRead, toNat_stackAddress, BitVec.toNat_add]
  rfl

theorem popped_push_sp (s : State) (v : Byte) : (popped (push s v)).sp = s.sp := by
  rw [popped_sp, push_sp, BitVec.sub_add_cancel]

/-- Settles O27: the stack address as a number, and the increment after the decrement meets the slot pushed. -/
theorem pushAndPopAreNestedInPageOne : Obligations.PushAndPopAreNestedInPageOne := by
  unfold Obligations.PushAndPopAreNestedInPageOne
  exact fun s v => ⟨push_eq_write s v, popped_eq_ofNat s, popByte_eq_read s, popByte_push s v, popped_push_sp s v⟩

/-! The instructions. -/

/-- Settles O25: each meaning is the shared load of one register from another, completed with the length 1. -/
theorem transfersCopyAndSetZeroAndNegative : Obligations.TransfersCopyAndSetZeroAndNegative := by
  unfold Obligations.TransfersCopyAndSetZeroAndNegative
  exact fun s => ⟨complete_eq .tax (loadX s.a s), complete_eq .tay (loadY s.a s), complete_eq .txa (loadA s.x s),
    complete_eq .tya (loadA s.y s), complete_eq .tsx (loadX s.sp s), rfl⟩

/-- Settles O26: the handler writes SP and the two flags of decision D12, and is completed with the length 1. -/
theorem txsCopiesAndSetsZeroAndNegative : Obligations.TxsCopiesAndSetsZeroAndNegative := by
  unfold Obligations.TxsCopiesAndSetsZeroAndNegative
  exact fun s => complete_eq .txs ((s.setSp s.x).setFlags (setZN s.x s.flags))

/-- Settles O28: the handler is the shared push of A, completed with the length 1. -/
theorem phaPushesTheAccumulator : Obligations.PhaPushesTheAccumulator := by
  unfold Obligations.PhaPushesTheAccumulator
  exact fun s => complete_eq .pha (push s s.a)

end Sys2Proof.Machine
end

section
/-! PROOF. The logical operations and BIT, each the handler's state on the operand byte, completed. 43_logical.md R165 to
R168. -/

namespace Sys2Proof.Machine

/-- Settles O31: the rows are the table's, and A and its flags loaded with the bitwise result, completed, is the record
update stated. -/
theorem logicalOperationsWriteAccumulator : Obligations.LogicalOperationsWriteAccumulator := by
  unfold Obligations.LogicalOperationsWriteAccumulator
  exact fun i s =>
    ⟨fun hi => ⟨row_mem_of_lookup hi nofun (by decide),
        exec_eq_complete_of_withOperand (op := opAnd) hi rfl rfl s fun _ _ => rfl⟩,
      fun hi => ⟨row_mem_of_lookup hi nofun (by decide),
        exec_eq_complete_of_withOperand (op := opOra) hi rfl rfl s fun _ _ => rfl⟩,
      fun hi => ⟨row_mem_of_lookup hi nofun (by decide),
        exec_eq_complete_of_withOperand (op := opEor) hi rfl rfl s fun _ _ => rfl⟩⟩

/-- Settles O32: the rows are the table's, and the handler writes V, Z and N of the AND and no register. -/
theorem bitTestsTheAndOfAccumulatorAndOperand : Obligations.BitTestsTheAndOfAccumulatorAndOperand := by
  unfold Obligations.BitTestsTheAndOfAccumulatorAndOperand
  exact fun i s hi => ⟨row_mem_of_lookup hi nofun (by decide),
    exec_eq_complete_of_withOperand (op := opBit) hi rfl rfl s fun _ _ => rfl⟩

end Sys2Proof.Machine
end

section
/-! PROOF. Add and subtract from the exact sum, the signed range behind V, and the compares.
44_arithmetic_compare.md R170 to R175, R178. -/

namespace Sys2Proof.Machine

/-! What an addition leaves, from its exact sum. 44_arithmetic_compare.md R170. -/

/-- Masking with 0x80 tests the sign bit. -/
theorem and_0x80_ne_zero (b : Byte) : ((b &&& 0x80) != 0) = b.getLsbD 7 := by
  have hmask : b &&& 0x80 = if b.getLsbD 7 then 0x80 else 0 := BitVec.and_twoPow b 7
  rw [hmask]
  cases b.getLsbD 7 <;> rfl

theorem addResult_getLsbD_seven (a m : Byte) (carry : Bool) :
    (addResult a m carry).getLsbD 7 = (addSum a m carry).testBit 7 :=
  BitVec.getLsbD_ofNat 8 (addSum a m carry) 7

theorem addResult_beq_zero (a m : Byte) (carry : Bool) :
    (addResult a m carry == 0) = decide (addSum a m carry % 256 = 0) := by
  have hzero : addResult a m carry = 0 ↔ addSum a m carry % 256 = 0 := BitVec.toNat_inj.symm
  exact decide_eq_decide.mpr hzero

theorem addOverflow_eq (a m : Byte) (carry : Bool) : addOverflow a m carry =
    ((a.getLsbD 7 == m.getLsbD 7) && (a.getLsbD 7 != (addSum a m carry).testBit 7)) := by
  rw [addOverflow, and_0x80_ne_zero, BitVec.getLsbD_and, BitVec.getLsbD_not, BitVec.getLsbD_xor, BitVec.getLsbD_xor,
    addResult_getLsbD_seven]
  cases a.getLsbD 7 <;> cases m.getLsbD 7 <;> rfl

theorem addFlags_eq (a m : Byte) (f : Flags) : addFlags a m f = { f with
    c := decide (addSum a m f.c > 0xFF)
    v := (a.getLsbD 7 == m.getLsbD 7) && (a.getLsbD 7 != (addSum a m f.c).testBit 7)
    z := decide (addSum a m f.c % 256 = 0)
    n := (addSum a m f.c).testBit 7 } := by
  rw [addFlags, setZN, addResult_beq_zero, addResult_getLsbD_seven, addOverflow_eq]

/-- V is set exactly when the signed sum leaves the range of a signed byte. -/
theorem addOverflow_iff (a m : Byte) (carry : Bool) : addOverflow a m carry = true ↔
    a.toInt + m.toInt + carry.toNat < -128 ∨ a.toInt + m.toInt + carry.toNat > 127 := by
  have hsign (b : Byte) : b.getLsbD 7 = decide (128 ≤ b.toNat) := BitVec.getLsbD_last b
  have hint (b : Byte) : b.toInt = if 2 * b.toNat < 256 then (b.toNat : Int) else b.toNat - 256 :=
    BitVec.toInt_eq_toNat_cond b
  have ha := a.isLt
  have hm := m.isLt
  have hc := Bool.toNat_le carry
  rw [addOverflow_eq, hsign, hsign, hint, hint, Nat.testBit_eq_decide_div_mod_eq, addSum]
  simp only [Bool.and_eq_true, beq_iff_eq, bne_iff_ne, ne_eq, decide_eq_decide]
  omega

/-! The complement makes the addition a subtraction. 44_arithmetic_compare.md R171. -/

theorem complement_getLsbD_seven (m : Byte) : (complement m).getLsbD 7 = !m.getLsbD 7 :=
  (BitVec.getLsbD_xor ..).trans (Bool.xor_true _)

theorem toInt_complement (m : Byte) : (complement m).toInt = -1 - m.toInt := by
  have hm := m.isLt
  rw [BitVec.toInt_eq_toNat_cond, BitVec.toInt_eq_toNat_cond, toNat_complement]
  omega

/-- The difference modulo 256, a clear carry taking one more. -/
theorem addResult_complement (a m : Byte) (carry : Bool) :
    addResult a (complement m) carry = BitVec.ofInt 8 ((a.toNat : Int) - m.toNat - (1 - carry.toNat)) := by
  have hm := m.isLt
  apply BitVec.eq_of_toNat_eq
  rw [addResult, addSum, toNat_complement, BitVec.toNat_ofNat, BitVec.toNat_ofInt]
  omega

/-- Bit 8 of the sum is "no borrow". 90_conflicts.md C3, decision D19. -/
theorem addSum_complement_gt_iff (a m : Byte) (carry : Bool) :
    addSum a (complement m) carry > 0xFF ↔ (m.toNat : Int) + (1 - carry.toNat) ≤ a.toNat := by
  have hm := m.isLt
  rw [addSum, toNat_complement]
  omega

theorem addOverflow_complement_iff (a m : Byte) (carry : Bool) : addOverflow a (complement m) carry = true ↔
    a.toInt - m.toInt - (1 - (carry.toNat : Int)) < -128 ∨ a.toInt - m.toInt - (1 - (carry.toNat : Int)) > 127 := by
  rw [addOverflow_iff, toInt_complement]
  omega

/-- Subtracting what was added, with the carry complemented, gives the accumulator back. 90_conflicts.md C4. -/
theorem addResult_addResult_complement (a m : Byte) (carry : Bool) :
    addResult (addResult a m carry) (complement m) (!carry) = a := by
  have ha := a.isLt
  have hm := m.isLt
  have hc : (!carry).toNat = 1 - carry.toNat := by cases carry <;> rfl
  have hle := Bool.toNat_le carry
  apply BitVec.eq_of_toNat_eq
  rw [addResult, addSum, addResult, addSum, toNat_complement, BitVec.toNat_ofNat, BitVec.toNat_ofNat, hc]
  omega

/-! The instructions. -/

theorem exec_eq_complete_of_adc {i : Instr} (hi : i.mnemonic = .adc) (s : State) :
    ∃ m : Byte, (resolve i.operand s).operand = some m ∧ exec i s = complete i (addToA m s) :=
  exec_eq_complete_of_withOperand (op := opAdc) hi rfl rfl s fun _ _ => rfl

theorem exec_eq_complete_of_sbc {i : Instr} (hi : i.mnemonic = .sbc) (s : State) :
    ∃ m : Byte, (resolve i.operand s).operand = some m ∧ exec i s = complete i (addToA (complement m) s) :=
  exec_eq_complete_of_withOperand (op := opSbc) hi rfl rfl s fun _ _ => rfl

/-- Settles O33: the rows are the table's, and A and the flags are those of the exact sum. -/
theorem adcAddsOperandAndCarry : Obligations.AdcAddsOperandAndCarry := by
  unfold Obligations.AdcAddsOperandAndCarry
  intro i s hi
  obtain ⟨m, hm, hexec⟩ := exec_eq_complete_of_adc hi s
  refine ⟨row_mem_of_lookup hi nofun (by decide), m, hm, ?_⟩
  rw [hexec, addToA_eq, addFlags_eq]
  rfl

/-- Settles O34: as ADC on the complement, whose sign bit is the operand's inverted. -/
theorem sbcAddsTheComplementAndCarry : Obligations.SbcAddsTheComplementAndCarry := by
  unfold Obligations.SbcAddsTheComplementAndCarry
  intro i s hi
  obtain ⟨m, hm, hexec⟩ := exec_eq_complete_of_sbc hi s
  refine ⟨row_mem_of_lookup hi nofun (by decide), m, hm, ?_⟩
  have hsigns : ∀ x y : Bool, (x == !y) = (x != y) := by decide
  rw [hexec, addToA_eq, addFlags_eq, complement_getLsbD_seven, hsigns]
  rfl

/-- Settles O35: V is the signed range of the sum, and the complement turns the sum into the difference. -/
theorem overflowIsTheSignedRangeAndSbcSubtracts : Obligations.OverflowIsTheSignedRangeAndSbcSubtracts := by
  unfold Obligations.OverflowIsTheSignedRangeAndSbcSubtracts
  refine fun i s => ⟨fun hi => ?_, fun hi => ?_⟩
  · obtain ⟨m, hm, hexec⟩ := exec_eq_complete_of_adc hi s
    exact ⟨m, _, hm, hexec, addOverflow_iff s.a m s.flags.c⟩
  · obtain ⟨m, hm, hexec⟩ := exec_eq_complete_of_sbc hi s
    exact ⟨m, _, hm, hexec, addResult_complement s.a m s.flags.c,
      decide_eq_true_iff.trans (addSum_complement_gt_iff s.a m s.flags.c),
      addOverflow_complement_iff s.a m s.flags.c⟩

/-- Settles O36: SBC's sum starts from ADC's result and the complemented carry, and they cancel modulo 256. -/
theorem sbcUndoesAdcWithTheComplementedCarry : Obligations.SbcUndoesAdcWithTheComplementedCarry := by
  unfold Obligations.SbcUndoesAdcWithTheComplementedCarry
  intro s m
  refine ⟨_, complete_eq (.adcImmediate m) (opAdc m s), fun w ha hc =>
    ⟨_, complete_eq (.sbcImmediate m) (opSbc m w), ?_⟩⟩
  have hadded : w.a = addResult s.a m s.flags.c := ha
  calc addResult w.a (complement m) w.flags.c
    _ = addResult (addResult s.a m s.flags.c) (complement m) (!s.flags.c) := by rw [hadded, hc]
    _ = s.a := addResult_addResult_complement s.a m s.flags.c

/-- Settles O37: the rows are the table's, and each handler writes the flags of its own register's comparison. -/
theorem comparesUseTheirOwnRegister : Obligations.ComparesUseTheirOwnRegister := by
  unfold Obligations.ComparesUseTheirOwnRegister
  exact fun i s =>
    ⟨fun hi => ⟨row_mem_of_lookup hi nofun (by decide),
        exec_eq_complete_of_withOperand (op := opCmp) hi rfl rfl s fun _ _ => rfl⟩,
      fun hi => ⟨row_mem_of_lookup hi nofun (by decide),
        exec_eq_complete_of_withOperand (op := opCpx) hi rfl rfl s fun _ _ => rfl⟩,
      fun hi => ⟨row_mem_of_lookup hi nofun (by decide),
        exec_eq_complete_of_withOperand (op := opCpy) hi rfl rfl s fun _ _ => rfl⟩⟩

end Sys2Proof.Machine
end

section
/-! PROOF. Increment and decrement: the read-modify-write at the resolved address, and the index registers as completed
handlers. 45_incdec.md R180 to R185. -/

namespace Sys2Proof.Machine

/-! A read-modify-write form. 40_step_and_addressing.md R129. -/

/-- Every form that writes at a resolved address has a memory operand. 30_encoding.md R91. -/
theorem exists_memory_operand_of_addressWriter {i : Instr} (hi : i.mnemonic ∈ addressWriters)
    (hacc : i.operand ≠ .accumulator) : ∃ m : MemOperand, i.operand = .memory m := by
  have hmodes : ∀ op : Byte, (lookup op).mnemonic ∈ addressWriters → (lookup op).mode ≠ .accumulator →
      (lookup op).mode ∉ nonMemoryModes := by decide
  have hne : i.mnemonic ≠ .ill := (by decide : ∀ x ∈ addressWriters, x ≠ .ill) _ hi
  have hmode := hmodes i.opcode
  rw [lookup_opcode hne] at hmode
  exact exists_memory_of_mode (hmode hi (mt (mode_eq_accumulator_iff i.operand).mp hacc))

/-- Its handler is given the resolved address and the byte read there, and its state is completed. -/
theorem exec_eq_complete_of_withBoth {i : Instr} {n : Mnemonic} {op : Addr → Byte → State → State} {s : State}
    (hi : i.mnemonic = n) (hn : n ∈ addressWriters) (hacc : i.operand ≠ .accumulator)
    (hop : ∀ ctx, handler n i.operand.mode ctx s = withBoth ctx op s) :
    ∃ p : Addr, (resolve i.operand s).address = some p ∧ (resolve i.operand s).operand = some (busRead s p) ∧
      exec i s = complete i (op p (busRead s p) s) := by
  subst hi
  obtain ⟨m, ho⟩ := exists_memory_operand_of_addressWriter hn hacc
  have hp : (resolve i.operand s).address = some (effectiveAddress m s) := by rw [ho, resolve_memory_address]
  have hread : (resolve i.operand s).operand = some (busRead s (effectiveAddress m s)) := by
    rw [ho, resolve_memory_operand, memoryByte]
  have hexecuted : ∀ x ∈ addressWriters, x.rejected = false ∧ x.managesPc = false := by decide
  obtain ⟨hr, hpc⟩ := hexecuted _ hn
  refine ⟨_, hp, hread, exec_eq_complete hr hpc ?_⟩
  rw [hop, withBoth, hp, hread]

/-! INC and DEC. -/

/-- INC and DEC have no Accumulator form. 30_encoding.md R91. -/
theorem operand_ne_accumulator_of_incDec {i : Instr} (hi : i.mnemonic ∈ [Mnemonic.inc, .dec]) :
    i.operand ≠ .accumulator := by
  intro hacc
  have hrow := (mode_eq_accumulator_iff_mem i).mp ((mode_eq_accumulator_iff i.operand).mpr hacc)
  have hshifts : ∀ j ∈ [Instr.aslAccumulator, .lsrAccumulator, .rolAccumulator, .rorAccumulator],
      j.mnemonic ∉ [Mnemonic.inc, .dec] := by decide
  exact hshifts i hrow hi

/-- The byte at the resolved address, changed by `f`, is written back there and flagged. -/
theorem exec_eq_complete_of_incDec {i : Instr} {n : Mnemonic} {f : Byte → Byte} {s : State} (hi : i.mnemonic = n)
    (hn : n ∈ [Mnemonic.inc, .dec])
    (hop : ∀ mode ctx, handler n mode ctx s = withBoth ctx (fun p v => storeAndFlag p (f v)) s)
    (hv : ∀ v, storedByte n (some v) s = some (f v)) :
    ∃ p : Addr, (resolve i.operand s).address = some p ∧ (resolve i.operand s).operand = some (busRead s p) ∧
      handlerAccesses i s = [.write p (f (busRead s p))] ∧
      exec i s = complete i (storeAndFlag p (f (busRead s p)) s) := by
  subst hi
  have hwriter : i.mnemonic ∈ addressWriters := List.Sublist.mem hn (by decide)
  obtain ⟨p, hp, hread, hexec⟩ :=
    exec_eq_complete_of_withBoth rfl hwriter (operand_ne_accumulator_of_incDec hn) (hop i.operand.mode)
  have hstored : storedByte i.mnemonic (resolve i.operand s).operand s = some (f (busRead s p)) := by rw [hread, hv]
  exact ⟨p, hp, hread, (handlerAccesses_of_addressWriter hwriter s).trans (writeBack_eq hp hstored), hexec⟩

/-- Settles O38: the rows are the table's, and the byte written back, its flags set, completed, is the record update
stated. -/
theorem incAndDecWriteMemoryBack : Obligations.IncAndDecWriteMemoryBack := by
  unfold Obligations.IncAndDecWriteMemoryBack
  exact fun i s =>
    ⟨fun hi => ⟨row_mem_of_lookup hi nofun (by decide),
        exec_eq_complete_of_incDec (f := (· + 1)) hi (by decide) (fun _ _ => rfl) fun _ => rfl⟩,
      fun hi => ⟨row_mem_of_lookup hi nofun (by decide),
        exec_eq_complete_of_incDec (f := (· - 1)) hi (by decide) (fun _ _ => rfl) fun _ => rfl⟩⟩

/-! The index registers. -/

theorem handlerAccesses_of_indexStep {i : Instr} (hi : i ∈ [Instr.inx, .iny, .dex, .dey]) (s : State) :
    handlerAccesses i s = [] := by
  cases i with
  | inx | iny | dex | dey => rfl
  | _ => simp at hi

/-- Settles O39: each meaning is the shared load of the register with its successor or predecessor, completed with the
length 1. -/
theorem indexIncrementsAndDecrements : Obligations.IndexIncrementsAndDecrements := by
  unfold Obligations.IndexIncrementsAndDecrements
  exact fun s => ⟨complete_eq .inx (loadX (s.x + 1) s), complete_eq .iny (loadY (s.y + 1) s),
    complete_eq .dex (loadX (s.x - 1) s), complete_eq .dey (loadY (s.y - 1) s),
    fun _ hi => handlerAccesses_of_indexStep hi s⟩

end Sys2Proof.Machine
end

section
/-! PROOF. Shifts and rotates as arithmetic on numbers, on the accumulator and at the resolved address.
46_shift_rotate.md R190 to R194. -/

namespace Sys2Proof.Machine

/-! The result as a number and the bit out. -/

theorem shiftLeft_eq_ofNat (v : Byte) :
    shiftLeft v = { result := BitVec.ofNat 8 (2 * v.toNat), out := v.getLsbD 7 } := by
  have hresult : v <<< 1 = BitVec.ofNat 8 (2 * v.toNat) := by
    apply BitVec.eq_of_toNat_eq
    rw [BitVec.toNat_shiftLeft, BitVec.toNat_ofNat, Nat.shiftLeft_eq, Nat.pow_one, Nat.mul_comm]
  rw [shiftLeft, hresult]

theorem shiftRight_eq_ofNat (v : Byte) :
    shiftRight v = { result := BitVec.ofNat 8 (v.toNat / 2), out := v.getLsbD 0 } := by
  have hresult : v >>> 1 = BitVec.ofNat 8 (v.toNat / 2) := by
    apply BitVec.eq_of_toNat_eq
    rw [BitVec.toNat_ushiftRight, BitVec.toNat_ofNat, Nat.shiftRight_eq_div_pow]
    omega
  rw [shiftRight, hresult]

/-- The old carry fills the bit the shift freed, so it is added. 46_shift_rotate.md R193. -/
theorem rotateLeft_eq_ofNat (v : Byte) (carry : Bool) : rotateLeft v carry =
    { result := BitVec.ofNat 8 (2 * v.toNat + carry.toNat), out := v.getLsbD 7 } := by
  have hresult : v <<< 1 ||| BitVec.ofNat 8 carry.toNat = BitVec.ofNat 8 (2 * v.toNat + carry.toNat) := by
    have hcarry := Bool.toNat_le carry
    have hshifted : v.toNat <<< 1 % 2 ^ 8 = 2 ^ 1 * (v.toNat % 128) := by omega
    have hor := Nat.two_pow_add_eq_or_of_lt (i := 1) (b := carry.toNat) (by omega) (v.toNat % 128)
    apply BitVec.eq_of_toNat_eq
    rw [BitVec.toNat_or, BitVec.toNat_shiftLeft, BitVec.toNat_ofNat, BitVec.toNat_ofNat, hshifted,
      Nat.mod_eq_of_lt (a := carry.toNat) (by omega), ← hor]
    omega
  rw [rotateLeft, hresult]

/-- The old carry fills bit 7, which the shift freed, so its 128 is added. 46_shift_rotate.md R194. -/
theorem rotateRight_eq_ofNat (v : Byte) (carry : Bool) : rotateRight v carry =
    { result := BitVec.ofNat 8 (v.toNat / 2 + 128 * carry.toNat), out := v.getLsbD 0 } := by
  have hresult : v >>> 1 ||| BitVec.ofNat 8 (carry.toNat * 128) =
      BitVec.ofNat 8 (v.toNat / 2 + 128 * carry.toNat) := by
    have hhalf : v.toNat / 2 < 2 ^ 7 := by have := v.isLt; omega
    have hor := Nat.two_pow_add_eq_or_of_lt hhalf carry.toNat
    have hcarry := Bool.toNat_le carry
    apply BitVec.eq_of_toNat_eq
    rw [BitVec.toNat_or, BitVec.toNat_ushiftRight, BitVec.toNat_ofNat, BitVec.toNat_ofNat,
      Nat.shiftRight_eq_div_pow, Nat.mod_eq_of_lt (by omega), Nat.pow_one, Nat.or_comm, Nat.mul_comm, ← hor]
    omega
  rw [rotateRight, hresult]

/-! The accumulator forms. -/

theorem exec_eq_complete_of_shiftedToA {i : Instr} {r r' : Shifted} {s : State}
    (hexec : exec i s = complete i (shiftedToA r s)) (hr : r = r') : exec i s = complete i (shiftedToA r' s) :=
  hr ▸ hexec

/-- Settles O40: each meaning writes the shifted A and its flags, completed with the length 1; the shift is the
arithmetic stated. -/
theorem shiftsAndRotatesOnTheAccumulator : Obligations.ShiftsAndRotatesOnTheAccumulator := by
  unfold Obligations.ShiftsAndRotatesOnTheAccumulator
  exact fun s => ⟨exec_eq_complete_of_shiftedToA rfl (shiftLeft_eq_ofNat s.a),
    exec_eq_complete_of_shiftedToA rfl (shiftRight_eq_ofNat s.a),
    exec_eq_complete_of_shiftedToA rfl (rotateLeft_eq_ofNat s.a s.flags.c),
    exec_eq_complete_of_shiftedToA rfl (rotateRight_eq_ofNat s.a s.flags.c)⟩

/-! The memory forms. -/

/-- The byte at the resolved address, shifted by `f` (which `g` says as numbers), is written back there and flagged.
46_shift_rotate.md R190. -/
theorem exec_eq_complete_of_shift {i : Instr} {n : Mnemonic} {onA : State → State}
    {op : Addr → Byte → State → State} {f g : Byte → Shifted} {s : State} (hi : i.mnemonic = n)
    (hn : n ∈ [Mnemonic.asl, .lsr, .rol, .ror]) (hacc : i.operand ≠ .accumulator)
    (hop : ∀ mode ctx, handler n mode ctx s = shiftHandler mode ctx onA op s)
    (hf : ∀ p v, op p v s = shiftedToMemory p (f v) s) (hg : ∀ v, f v = g v) :
    ∃ p : Addr, (resolve i.operand s).address = some p ∧ (resolve i.operand s).operand = some (busRead s p) ∧
      exec i s = complete i (shiftedToMemory p (g (busRead s p)) s) := by
  have hmode : i.operand.mode ≠ .accumulator := mt (mode_eq_accumulator_iff i.operand).mp hacc
  obtain ⟨p, hp, hread, hexec⟩ := exec_eq_complete_of_withBoth (op := op) hi (List.Sublist.mem hn (by decide)) hacc
    fun ctx => (hop i.operand.mode ctx).trans (if_neg hmode)
  exact ⟨p, hp, hread, by rw [hexec, hf, hg]⟩

/-- Settles O41: the rows are the table's, and the shifted byte written back, its flags set, completed, is the record
update stated. -/
theorem shiftsAndRotatesOnMemory : Obligations.ShiftsAndRotatesOnMemory := by
  unfold Obligations.ShiftsAndRotatesOnMemory
  exact fun i s =>
    ⟨fun hi => ⟨row_mem_of_lookup hi nofun (by decide), fun hacc =>
        exec_eq_complete_of_shift hi (by decide) hacc (fun _ _ => rfl) (fun _ _ => rfl) shiftLeft_eq_ofNat⟩,
      fun hi => ⟨row_mem_of_lookup hi nofun (by decide), fun hacc =>
        exec_eq_complete_of_shift hi (by decide) hacc (fun _ _ => rfl) (fun _ _ => rfl) shiftRight_eq_ofNat⟩,
      fun hi => ⟨row_mem_of_lookup hi nofun (by decide), fun hacc =>
        exec_eq_complete_of_shift hi (by decide) hacc (fun _ _ => rfl) (fun _ _ => rfl)
          fun v => rotateLeft_eq_ofNat v s.flags.c⟩,
      fun hi => ⟨row_mem_of_lookup hi nofun (by decide), fun hacc =>
        exec_eq_complete_of_shift hi (by decide) hacc (fun _ _ => rfl) (fun _ _ => rfl)
          fun v => rotateRight_eq_ofNat v s.flags.c⟩⟩

end Sys2Proof.Machine
end

section
/-! PROOF. Jump, call and return: JSR pushes the return address in two halves and RTS puts them together again.
47_jump_branch.md R200 to R202, R212. -/

namespace Sys2Proof.Machine

/-! The halves of a 16-bit value as numbers. -/

theorem highByte_eq_ofNat (w : Addr) : highByte w = BitVec.ofNat 8 (w.toNat / 256) :=
  congrArg (BitVec.ofNat 8) (Nat.shiftRight_eq_div_pow w.toNat 8)

theorem lowByte_eq_ofNat (w : Addr) : lowByte w = BitVec.ofNat 8 w.toNat := rfl

theorem hiLo_eq_ofNat (hi lo : Byte) : hiLo hi lo = BitVec.ofNat 16 (hi.toNat * 256 + lo.toNat) := by
  rw [← toNat_hiLo, BitVec.ofNat_toNat, BitVec.setWidth_eq]

/-! Two bytes pushed and two bytes pulled. -/

theorem push_push_eq (s : State) (v w : Byte) : push (push s v) w = { s with
    mem := (s.mem.write (stackAddress s.sp).toNat v).write (stackAddress (s.sp - 1)).toNat w,
    sp := s.sp - 2 } := by
  have hsp : s.sp - 1 - 1 = s.sp - 2 := BitVec.sub_sub s.sp 1 1
  rw [← hsp]
  rfl

theorem stackAddress_ne_sub_one (sp : Byte) : stackAddress sp ≠ stackAddress (sp - 1) := by
  intro h
  have hsp : sp = sp - 1 := stackAddress_inj h
  bv_omega

/-- The two slots of a word pushed high byte first. 47_jump_branch.md R201. -/
theorem busRead_push_push (s : State) (v w : Byte) :
    busRead (push (push s v) w) (stackAddress s.sp) = v ∧
    busRead (push (push s v) w) (stackAddress (s.sp - 1)) = w := by
  constructor
  · rw [busRead_push_of_ne (s := push s v) (stackAddress_ne_sub_one s.sp), busRead_push, if_pos rfl]
  · rw [busRead_push, push_sp, if_pos rfl]

/-! The instructions. -/

theorem exec_jsr (target : Addr) (s : State) : exec (.jsr target) s =
    .next (((push (push s (highByte (s.pc + 3))) (lowByte (s.pc + 3))).setPc target).setAnswer
      (some (.executed 0x20))) := rfl

theorem exec_rts (s : State) : exec .rts s =
    .next (((s.setSp (s.sp + 2)).setPc
      (hiLo (busRead s (stackAddress (s.sp + 2))) (busRead s (stackAddress (s.sp + 1))))).setAnswer
        (some (.executed 0x60))) := by
  have hsp : s.sp + 1 + 1 = s.sp + 2 := BitVec.add_assoc s.sp 1 1
  rw [← hsp]
  exact completeManaged_eq .rts (opRts s)

/-- Settles O42: the handler of JMP sets PC to the address resolved; JSR's two pushes are as `push_push_eq` says. -/
theorem jumpAndCallGoToTheTarget : Obligations.JumpAndCallGoToTheTarget := by
  unfold Obligations.JumpAndCallGoToTheTarget
  refine fun w s => ⟨completeManaged_eq (.jmpAbsolute w) (opJmp w s),
    completeManaged_eq (.jmpIndirect w) (opJmp (indirectTarget w s) s), ?_⟩
  rw [exec_jsr, push_push_eq, highByte_eq_ofNat, lowByte_eq_ofNat]
  rfl

/-- Settles O43: the word of the two bytes pulled, as a number. -/
theorem rtsPopsTheReturnAddress : Obligations.RtsPopsTheReturnAddress := by
  unfold Obligations.RtsPopsTheReturnAddress
  intro s
  rw [exec_rts, hiLo_eq_ofNat]
  rfl

/-- Settles O44: RTS pulls from the two slots JSR pushed to, and the halves of the return address make it up again. -/
theorem jsrThenRtsResumesAfterTheCall : Obligations.JsrThenRtsResumesAfterTheCall := by
  unfold Obligations.JsrThenRtsResumesAfterTheCall
  intro target s t w hcall hsp hhigh hlow
  cases hcall.symm.trans (exec_jsr target s)
  obtain ⟨hpushedHigh, hpushedLow⟩ := busRead_push_push s (highByte (s.pc + 3)) (lowByte (s.pc + 3))
  have hsp1 : w.sp + 1 = s.sp - 1 := by rw [hsp]; exact BitVec.sub_add_cancel (s.sp - 1) 1
  have hsp2 : w.sp + 2 = s.sp := by
    calc
      w.sp + 2 = w.sp + 1 + 1 := (BitVec.add_assoc w.sp 1 1).symm
      _ = s.sp := by rw [hsp1, BitVec.sub_add_cancel]
  refine ⟨_, exec_rts w, ?_, hsp2⟩
  calc
    hiLo (busRead w (stackAddress (w.sp + 2))) (busRead w (stackAddress (w.sp + 1)))
      = hiLo (highByte (s.pc + 3)) (lowByte (s.pc + 3)) := by
        rw [hsp1, hsp2, hhigh.trans hpushedHigh, hlow.trans hpushedLow]
    _ = s.pc + 3 := hiLo_highByte_lowByte (s.pc + 3)

end Sys2Proof.Machine
end

section
/-! PROOF. The branches, each the shared branch on its flag's condition, and the flag instructions and NOP.
47_jump_branch.md R203 to R211, 48_flag_nop_system.md R220 to R227. -/

namespace Sys2Proof.Machine

/-- A signed number is added to PC + 2 modulo 65536. 30_encoding.md R87, decision D6. -/
theorem add_two_add_ofInt (pc : Addr) (d : Int) : pc + 2 + BitVec.ofInt 16 d = BitVec.ofInt 16 (pc.toNat + 2 + d) := by
  rw [BitVec.ofInt_add, BitVec.ofInt_add, BitVec.ofInt_natCast, BitVec.ofNat_toNat, BitVec.setWidth_eq]
  rfl

/-- A row whose meaning is the shared branch, `cond` being the condition it tests. 47_jump_branch.md R203. -/
theorem exec_of_branch {i : Instr} {s : State} {taken : Bool} {offset : Byte} {cond : Prop} [Decidable cond]
    (hexec : exec i s = completeManaged i (branch taken offset s)) (hcond : taken = true ↔ cond) :
    exec i s = .next { s with
      pc := BitVec.ofInt 16 (s.pc.toNat + 2 + if cond then offset.toInt else 0),
      answer := some (.executed i.opcode) } := by
  rw [hexec, completeManaged_eq, branch, ← add_two_add_ofInt]
  by_cases h : cond
  · rw [if_pos h, if_pos (hcond.mpr h)]
    rfl
  · have hzero : s.pc + 2 + BitVec.ofInt 16 0 = s.pc + 2 := BitVec.add_zero (s.pc + 2)
    rw [if_neg h, if_neg (mt hcond.mp h), hzero]
    rfl

/-- Settles O45: each row's meaning is the shared branch on its flag or on its flag's complement. -/
theorem branchesTestOneFlagAndWriteOnlyPc : Obligations.BranchesTestOneFlagAndWriteOnlyPc := by
  unfold Obligations.BranchesTestOneFlagAndWriteOnlyPc
  have hclear (flag : Bool) : (!flag) = true ↔ flag = false := Iff.of_eq (Bool.not_eq_true' flag)
  exact fun offset s => ⟨exec_of_branch rfl (hclear s.flags.c), exec_of_branch rfl Iff.rfl, exec_of_branch rfl Iff.rfl,
    exec_of_branch rfl (hclear s.flags.z), exec_of_branch rfl Iff.rfl, exec_of_branch rfl (hclear s.flags.n),
    exec_of_branch rfl (hclear s.flags.v), exec_of_branch rfl Iff.rfl⟩

/-- Settles O46: each handler writes one flag, and is completed with the length 1. -/
theorem flagInstructionsWriteOneFlag : Obligations.FlagInstructionsWriteOneFlag := by
  unfold Obligations.FlagInstructionsWriteOneFlag
  exact fun s => ⟨complete_eq .clc (opClc s), complete_eq .sec (opSec s), complete_eq .cli (opCli s),
    complete_eq .sei (opSei s), complete_eq .cld (opCld s), complete_eq .sed (opSed s), complete_eq .clv (opClv s)⟩

/-- Settles O47: the handler leaves the state, which is completed with the length 1. -/
theorem nopOnlyAdvancesPc : Obligations.NopOnlyAdvancesPc := by
  unfold Obligations.NopOnlyAdvancesPc
  exact fun s => ⟨complete_eq .nop s, rfl, rfl, rfl⟩

end Sys2Proof.Machine
end

section
/-! PROOF. The rejection: the bytes that take it, that it changes the answer alone, and that it repeats for ever.
60_exceptions.md R240, R241, R250. -/

namespace Sys2Proof.Machine

/-! The rejected instructions. -/

/-- Settles O16: `ill` is a rejected row, and its byte is checked against the list of the 105. -/
theorem illegalOpcodesTakeTheRejection : Obligations.IllegalOpcodesTakeTheRejection := by
  unfold Obligations.IllegalOpcodesTakeTheRejection
  exact fun opcode s => ⟨exec_of_rejected rfl s, rfl, List.contains_iff_mem, rfl, rfl⟩

/-- Settles O17: both are rejected rows. -/
theorem brkAndRtiTakeTheRejection : Obligations.BrkAndRtiTakeTheRejection := by
  unfold Obligations.BrkAndRtiTakeTheRejection
  exact fun s => ⟨exec_of_rejected rfl s, exec_of_rejected rfl s, rfl, rfl⟩

/-! The rejected bytes. -/

theorem opcode_of_rejected {i : Instr} (hi : i.wellFormed = true) (h : i.mnemonic.rejected = true) :
    i.opcode ∈ illegalOpcodes ∨ i.opcode = 0x00 ∨ i.opcode = 0x40 := by
  cases i with
  | ill opcode => exact .inl (List.contains_iff_mem.mp hi)
  | brk => exact .inr (.inl rfl)
  | rti => exact .inr (.inr rfl)
  | _ => cases h

theorem lookup_reject_of_byte {op : Byte} (h : op ∈ illegalOpcodes ∨ op = 0x00 ∨ op = 0x40) :
    (lookup op).reject = true := by
  obtain hill | rfl | rfl := h
  · exact congrArg Mnemonic.rejected (lookup_mnemonic_of_mem_illegalOpcodes hill)
  · rfl
  · rfl

/-- The opcode table has the rejected rows at these bytes and no other. 30_encoding.md R92, R93. -/
theorem fetchInstr_rejected_iff (s : State) : (fetchInstr s).mnemonic.rejected = true ↔
    busRead s s.pc ∈ illegalOpcodes ∨ busRead s s.pc = 0x00 ∨ busRead s s.pc = 0x40 := by
  constructor
  · intro h
    rw [← opcode_fetchInstr]
    exact opcode_of_rejected (wellFormed_decodeInstr _ _ _) h
  · intro h
    have hreject := lookup_reject_of_byte h
    rwa [lookup_at_pc] at hreject

/-- No opcode byte is the sentinel. 40_step_and_addressing.md R107. -/
theorem code_eq_sentinel_iff (r : StepResult) : r.code = 0x7FFF ↔ r = .invalid := by
  cases r with
  | invalid => exact iff_of_true rfl rfl
  | executed op =>
    refine iff_of_false (fun h => ?_) nofun
    have hop := op.isLt
    have hnat := congrArg BitVec.toNat h
    rw [StepResult.code, toNat_zext16] at hnat
    exact absurd (hnat ▸ hop) (by decide)

theorem stepResult_eq_invalid_iff (s : State) :
    stepResult s = .invalid ↔ (fetchInstr s).mnemonic.rejected = true := by
  cases h : (fetchInstr s).mnemonic.rejected with
  | true => exact iff_of_true (stepResult_of_rejected h) rfl
  | false => exact iff_of_false (by rw [stepResult_of_not_rejected h]; nofun) nofun

theorem answer_of_step {s t : State} (h : step s = .next t) : t.answer = some (stepResult s) := by
  obtain ⟨t', ht', -, hanswer⟩ := stepReturnsTheOpcodeOrTheSentinel s
  cases h.symm.trans ht'
  exact hanswer

/-- Settles O14: a step's result is the sentinel exactly if the instruction fetched is rejected, and the opcode table
says at which bytes it is. -/
theorem exactlyTheRejectedBytesRaiseInvalidInstruction :
    Obligations.ExactlyTheRejectedBytesRaiseInvalidInstruction := by
  unfold Obligations.ExactlyTheRejectedBytesRaiseInvalidInstruction
  intro s
  rw [← fetchInstr_rejected_iff]
  refine ⟨⟨?_, fun h => ⟨_, step_of_rejected h, rfl⟩⟩, step_of_rejected⟩
  rintro ⟨t, hstep, hcode⟩
  rw [answer_of_step hstep] at hcode
  exact (stepResult_eq_invalid_iff s).mp ((code_eq_sentinel_iff _).mp (Option.some.inj hcode))

theorem stepAccesses_of_rejected {s : State} (h : (fetchInstr s).mnemonic.rejected = true) :
    stepAccesses s = [.read s.pc] :=
  congrArg (BusAccess.read s.pc :: ·) (if_pos h)

/-- Settles O15: the state after differs in the answer alone. -/
theorem rejectedStepWritesNothing : Obligations.RejectedStepWritesNothing := by
  unfold Obligations.RejectedStepWritesNothing
  exact fun s h => ⟨⟨_, step_of_rejected h, rfl, rfl, rfl, rfl, rfl, rfl, rfl, rfl⟩, stepAccesses_of_rejected h⟩

/-- Settles O18, by induction on the step: the answer the rejection leaves is not read by the next step. -/
theorem aRejectionRepeatsForEver : Obligations.ARejectionRepeatsForEver := by
  unfold Obligations.ARejectionRepeatsForEver
  intro run hrun hrej k
  have hfirst : step (run 0) = .next ((run 0).setAnswer (some .invalid)) := step_of_rejected hrej
  change run (k + 1) = (run 0).setAnswer (some .invalid)
  induction k with
  | zero => exact Host.Outcome.next.inj ((hrun 0).symm.trans hfirst)
  | succ k ih =>
    have hnext := hrun (k + 1)
    rw [ih, theAnswerIsNeverRead] at hnext
    exact Host.Outcome.next.inj (hnext.symm.trans hfirst)

end Sys2Proof.Machine
end

section
/-! PROOF. The run loop and SafeFor against a run of steps: the loop follows the run as long as nothing is rejected.
70_reset_and_hazards.md R272, R279. -/

namespace Sys2Proof.Machine

/-! One turn of the loop. -/

theorem runLoop_succ_of_rejected {s : State} (h : (fetchInstr s).mnemonic.rejected = true) (n k : Nat) :
    runLoop (n + 1) k s = .next (.rejected k (s.setAnswer (some .invalid))) := by
  rw [runLoop, step_of_rejected h]
  exact if_pos rfl

theorem answer_eq_invalid_iff {s t : State} (h : step s = .next t) :
    t.answer = some .invalid ↔ (fetchInstr s).mnemonic.rejected = true := by
  rw [answer_of_step h, Option.some_inj, stepResult_eq_invalid_iff]

theorem runLoop_succ_of_not_rejected {s t : State} (h : (fetchInstr s).mnemonic.rejected = false)
    (hstep : step s = .next t) (n k : Nat) : runLoop (n + 1) k s = runLoop n (k + 1) t := by
  rw [runLoop, hstep]
  exact if_neg (mt (answer_eq_invalid_iff hstep).mp (Bool.eq_false_iff.mp h))

theorem safeFor_succ_iff {s t : State} (hstep : step s = .next t) (n : Nat) :
    SafeFor (n + 1) s ↔ (fetchInstr s).mnemonic.rejected = false ∧ SafeFor n t := by
  have hok : t.answer ≠ some .invalid ↔ (fetchInstr s).mnemonic.rejected = false := by
    rw [Ne, answer_eq_invalid_iff hstep, Bool.not_eq_true]
  rw [← hok]
  constructor
  · rintro ⟨t', hstep', hanswer, hsafe⟩
    cases hstep.symm.trans hstep'
    exact ⟨hanswer, hsafe⟩
  · exact fun ⟨hanswer, hsafe⟩ => ⟨t, hstep, hanswer, hsafe⟩

/-! Along a run. -/

/-- A run of steps from every state: each step answers a next state. -/
theorem exists_run (s : State) : ∃ run : Nat → State, run 0 = s ∧ ∀ j, step (run j) = .next (run (j + 1)) := by
  choose next hnext using fun s => exec_answers_next s (fetchInstr s)
  refine ⟨fun j => next^[j] s, rfl, fun j => ?_⟩
  dsimp only
  rw [Function.iterate_succ_apply']
  exact hnext (next^[j] s)

/-- The first `n` instructions fetched on a run are executed. -/
def ExecutesFirst (run : Nat → State) (n : Nat) : Prop :=
  ∀ i < n, (fetchInstr (run i)).mnemonic.rejected = false

/-- The first rejected instruction on a run is the one fetched after `j` steps. -/
def FirstRejectedAt (run : Nat → State) (j : Nat) : Prop :=
  ExecutesFirst run j ∧ (fetchInstr (run j)).mnemonic.rejected = true

theorem executesFirst_or_firstRejectedAt (run : Nat → State) (n : Nat) :
    ExecutesFirst run n ∨ ∃ j < n, FirstRejectedAt run j := by
  induction n with
  | zero => exact .inl nofun
  | succ n ih =>
    obtain hexec | ⟨j, hj, hfirst⟩ := ih
    · cases h : (fetchInstr (run n)).mnemonic.rejected with
      | true => exact .inr ⟨n, n.lt_succ_self, hexec, h⟩
      | false => exact .inl (Nat.forall_lt_succ_right.mpr ⟨hexec, h⟩)
    · exact .inr ⟨j, Nat.lt_succ_of_lt hj, hfirst⟩

section
variable {run : Nat → State} (hrun : ∀ j, step (run j) = .next (run (j + 1)))
include hrun

/-- The loop follows the run through the executed instructions, counting them. -/
theorem runLoop_add {j : Nat} (hexec : ExecutesFirst run j) (m k : Nat) :
    runLoop (j + m) k (run 0) = runLoop m (k + j) (run j) := by
  induction j generalizing m with
  | zero => rw [Nat.zero_add, Nat.add_zero]
  | succ j ih =>
    obtain ⟨hbefore, hj⟩ := Nat.forall_lt_succ_right.mp hexec
    calc
      runLoop (j + 1 + m) k (run 0) = runLoop (j + (m + 1)) k (run 0) := by rw [Nat.add_right_comm, Nat.add_assoc]
      _ = runLoop (m + 1) (k + j) (run j) := ih hbefore (m + 1)
      _ = runLoop m (k + (j + 1)) (run (j + 1)) := runLoop_succ_of_not_rejected hj (hrun j) m (k + j)

theorem runLoop_of_executesFirst {n : Nat} (hexec : ExecutesFirst run n) (k : Nat) :
    runLoop n k (run 0) = .next (.bound (run n)) :=
  runLoop_add hrun hexec 0 k

theorem runLoop_of_firstRejectedAt {n j : Nat} (hj : j < n) (hfirst : FirstRejectedAt run j) (k : Nat) :
    runLoop n k (run 0) = .next (.rejected (k + j) ((run j).setAnswer (some .invalid))) := by
  obtain ⟨hexec, hrej⟩ := hfirst
  obtain ⟨m, rfl⟩ : ∃ m, n = j + (m + 1) := Nat.exists_eq_add_of_lt hj
  rw [runLoop_add hrun hexec, runLoop_succ_of_rejected hrej]

theorem runLoop_rejected_iff (n k e : Nat) (t : State) : runLoop n k (run 0) = .next (.rejected e t) ↔
    ∃ j < n, e = k + j ∧ FirstRejectedAt run j ∧ t = (run j).setAnswer (some .invalid) := by
  constructor
  · intro h
    obtain hexec | ⟨j, hj, hfirst⟩ := executesFirst_or_firstRejectedAt run n
    · cases h.symm.trans (runLoop_of_executesFirst hrun hexec k)
    · cases h.symm.trans (runLoop_of_firstRejectedAt hrun hj hfirst k)
      exact ⟨j, hj, rfl, hfirst, rfl⟩
  · rintro ⟨j, hj, rfl, hfirst, rfl⟩
    exact runLoop_of_firstRejectedAt hrun hj hfirst k

theorem runLoop_bound_iff (n k : Nat) (t : State) :
    runLoop n k (run 0) = .next (.bound t) ↔ ExecutesFirst run n ∧ t = run n := by
  constructor
  · intro h
    obtain hexec | ⟨j, hj, hfirst⟩ := executesFirst_or_firstRejectedAt run n
    · cases h.symm.trans (runLoop_of_executesFirst hrun hexec k)
      exact ⟨hexec, rfl⟩
    · cases h.symm.trans (runLoop_of_firstRejectedAt hrun hj hfirst k)
  · rintro ⟨hexec, rfl⟩
    exact runLoop_of_executesFirst hrun hexec k

theorem safeFor_iff (n : Nat) : SafeFor n (run 0) ↔ ExecutesFirst run n := by
  induction n generalizing run with
  | zero => exact iff_of_true trivial nofun
  | succ n ih =>
    rw [safeFor_succ_iff (hrun 0), ih fun j => hrun (j + 1)]
    simp only [ExecutesFirst, Nat.forall_lt_succ_left]

end

/-- Settles O60: up to the bound the run executes every instruction fetched or has a first rejected one, and these are
the loop's two ends. -/
theorem runLoopEndsAtTheFirstRejectedStep : Obligations.RunLoopEndsAtTheFirstRejectedStep := by
  unfold Obligations.RunLoopEndsAtTheFirstRejectedStep
  intro s
  obtain ⟨run, rfl, hrun⟩ := exists_run s
  refine ⟨run, rfl, hrun, fun n k => ⟨fun e t => ?_, runLoop_bound_iff hrun n k, safeFor_iff hrun n⟩⟩
  rw [runLoop_rejected_iff hrun]
  simp only [FirstRejectedAt, and_assoc]
  rfl

end Sys2Proof.Machine
end

section
/-! PROOF. What the host's requests make of memory: `load` writes the image and the vector, so `reset` reaches the
image; and every request keeps the canonical form. 70_reset_and_hazards.md R260 to R269, R281. -/

namespace Sys2Proof.Machine

/-! The canonical form. -/

/-- Settles O11: nothing is listed. -/
theorem resetMemoryIsCanonical : Obligations.ResetMemoryIsCanonical := by
  unfold Obligations.ResetMemoryIsCanonical
  exact ⟨.nil, nofun⟩

theorem pointVector_keeps_wf {s : State} (h : s.wf) : (pointVector s).wf :=
  busWrite_keeps_wf (busWrite_keeps_wf h _ _) _ _

theorem loadRequest_keeps_wf {s : State} (h : s.wf) (image : List Byte) : (loadRequest image s).wf := by
  unfold loadRequest
  split
  · exact h
  · exact pointVector_keeps_wf (storeBytes_keeps_wf image h Config.loadBase)

theorem hostWrite_keeps_wf {s : State} (h : s.wf) (w : HostWrite) : (hostWrite w s).wf := by
  cases w with
  | memory address v => exact busWrite_keeps_wf h address v
  | _ => exact h

theorem step_of_serve_step {s t : State} {reply : Reply} (h : serve .step s = .next (reply, t)) :
    step s = .next t := by
  obtain ⟨t', ht'⟩ := exec_answers_next s (fetchInstr s)
  rw [serve, step_eq_exec, ht'] at h
  cases h
  exact ht'

/-- Settles O12: beside `step`, the requests that write memory are `init`, `load` and the host's own write. -/
theorem hostRequestsKeepMemoryCanonical : Obligations.HostRequestsKeepMemoryCanonical := by
  unfold Obligations.HostRequestsKeepMemoryCanonical
  intro r s t reply hs h
  cases r with
  | init => cases h; exact resetMemoryIsCanonical
  | load image => cases h; exact loadRequest_keeps_wf hs image
  | step => exact stepKeepsMemoryCanonical s t hs (step_of_serve_step h)
  | write w => cases h; exact hostWrite_keeps_wf hs w
  | reset | inspect | readMemory | lookup => cases h; exact hs

/-! What is read after `load`. 70_reset_and_hazards.md R266, R267. -/

theorem busRead_pointVector (s : State) (p : Addr) : busRead (pointVector s) p =
    if p = 0xFFFD then 0x80 else if p = 0xFFFC then 0x00 else busRead s p := by
  rw [pointVector, busRead_busWrite, busRead_busWrite]
  rfl

section
variable {image : List Byte} (himage : image.length ≤ 32762) (s : State)
include himage

theorem loadReply_of_le : loadReply image = .ok := if_neg (Nat.not_lt.mpr himage)

theorem loadRequest_of_le : loadRequest image s = pointVector (storeBytes s 0x8000 image) :=
  if_neg (Nat.not_lt.mpr himage)

theorem busRead_vector_loadRequest :
    busRead (loadRequest image s) 0xFFFC = 0x00 ∧ busRead (loadRequest image s) 0xFFFD = 0x80 := by
  rw [loadRequest_of_le himage, busRead_pointVector, busRead_pointVector]
  exact ⟨rfl, rfl⟩

/-- Off the vector the image stands at the load base, and every other byte is as before. -/
theorem busRead_loadRequest {p : Addr} (hlow : p ≠ 0xFFFC) (hhigh : p ≠ 0xFFFD) : busRead (loadRequest image s) p =
    if 0x8000 ≤ p.toNat then (image[p.toNat - 0x8000]?).getD (busRead s p) else busRead s p := by
  have hfits : (0x8000 : Addr).toNat + image.length ≤ 65536 := Nat.le_trans (Nat.add_le_add_left himage _) (by decide)
  rw [loadRequest_of_le himage, busRead_pointVector, if_neg hhigh, if_neg hlow, busRead_storeBytes _ _ _ _ hfits]
  rfl

theorem busRead_loadRequest_image {k : Nat} {b : Byte} (hk : image[k]? = some b) :
    busRead (loadRequest image s) (0x8000 + BitVec.ofNat 16 k) = b := by
  have hlen : k < image.length := (List.getElem?_eq_some_iff.mp hk).1
  have hp : (0x8000 + BitVec.ofNat 16 k : Addr).toNat = 0x8000 + k := by
    rw [BitVec.toNat_add, BitVec.toNat_ofNat]
    simp only [BitVec.reduceToNat]
    omega
  have hne {q : Addr} (hq : 0xFFFA ≤ q.toNat) : 0x8000 + BitVec.ofNat 16 k ≠ q := by
    rintro rfl
    omega
  rw [busRead_loadRequest himage s (hne (by decide)) (hne (by decide)), hp, if_pos (Nat.le_add_right _ _),
    Nat.add_sub_cancel_left, hk, Option.getD_some]

theorem busRead_loadRequest_of_outside {p : Addr} (hp : p.toNat < 0x8000 ∨ 0x8000 + image.length ≤ p.toNat)
    (hlow : p ≠ 0xFFFC) (hhigh : p ≠ 0xFFFD) : busRead (loadRequest image s) p = busRead s p := by
  rw [busRead_loadRequest himage s hlow hhigh]
  obtain hbelow | habove := hp
  · rw [if_neg (Nat.not_le.mpr hbelow)]
  · rw [List.getElem?_eq_none (by omega), Option.getD_none, ite_self]

end

/-- Settles O58: `load` writes no register, and the bytes read after it are those of the lemmas above. -/
theorem loadWritesTheImageAndTheVectorOrNothing : Obligations.LoadWritesTheImageAndTheVectorOrNothing := by
  unfold Obligations.LoadWritesTheImageAndTheVectorOrNothing
  refine fun image s => ⟨fun himage => ?_, fun hlong => ?_⟩
  · obtain ⟨ha, hx, hy, hsp, hpc, hflags⟩ := Registers.mk.inj (registers_loadRequest image s)
    obtain ⟨hlow, hhigh⟩ := busRead_vector_loadRequest himage s
    refine ⟨loadRequest image s, ?_, fun k b => busRead_loadRequest_image himage s, hlow, hhigh,
      fun p => busRead_loadRequest_of_outside himage s, ha, hx, hy, hsp, hpc, hflags⟩
    rw [serve, loadReply_of_le himage]
  · have hsize : image.length > Config.maxImage := hlong
    rw [serve, loadReply, loadRequest, if_pos hsize, if_pos hsize]

/-! The boot sequence. 70_reset_and_hazards.md R269. -/

/-- After `load`, `reset` starts at the load base. -/
theorem resetRequest_loadRequest {image : List Byte} (himage : image.length ≤ 32762) (s : State) :
    resetRequest (loadRequest image s) = resetTo 0x8000 (loadRequest image s) := by
  have hvector : busReadWord (loadRequest image s) Config.resetVector = 0x8000 := by
    obtain ⟨hlow, hhigh⟩ := busRead_vector_loadRequest himage s
    calc
      busReadWord (loadRequest image s) Config.resetVector
        = hiLo (busRead (loadRequest image s) 0xFFFD) (busRead (loadRequest image s) 0xFFFC) := rfl
      _ = 0x8000 := by rw [hlow, hhigh]; rfl
  rw [resetRequest, hvector]

/-- Settles O59: `reset` goes to the load base, where the image's first byte stands; the flags are still those of
`init`. -/
theorem bootSequenceReachesTheImage : Obligations.BootSequenceReachesTheImage := by
  unfold Obligations.BootSequenceReachesTheImage
  intro first more s hmore
  have himage : (first :: more).length ≤ 32762 := hmore
  rw [resetRequest_loadRequest himage]
  have hflags : (loadRequest (first :: more) State.reset).flags = Flags.allClear :=
    congrArg Registers.flags (registers_loadRequest (first :: more) State.reset)
  refine ⟨rfl, rfl, rfl, rfl, rfl, hflags, ?_⟩
  rw [opcode_fetchInstr]
  exact busRead_loadRequest_image himage State.reset (k := 0) rfl

end Sys2Proof.Machine
end
